-- ==== Sys2Proof/Word.lean ====
section
/-! DEFINITION. The word types of 00_scope.md R7 and R8. -/

namespace Sys2Proof

/-- `u8` of 00_scope.md R7. -/
abbrev Byte := BitVec 8

/-- `u32` of 00_scope.md R7: the magic constant, and the four-byte codec. -/
abbrev U32 := BitVec 32

/-- `F32` of 00_scope.md R8: a 32-bit pattern, read as a number in the format `NUM` of R6. A register holds the pattern
verbatim. -/
abbrev F32 := BitVec 32

end Sys2Proof
end

