-- ==== Sys2Proof/Config.lean ====
section
/-! DEFINITION. The implementation parameters of 00_scope.md R6 with their defaults, the selector codes of 30_encoding.md R70, and
the one free value of the model. -/

namespace Sys2Proof

/-! ### The number format, `NUM` of 00_scope.md R6 -/

/-- The direction an inexact result is rounded in: the four directions IEEE 754 requires (log 21). The default is R8's, to
nearest with ties to even. -/
inductive Rounding where
  | nearestEven
  | towardZero
  | towardPositive
  | towardNegative
deriving DecidableEq, Repr

/-- `NUM`: a 32-bit binary floating-point format, as wide as the four bytes a float takes on the wire (30_encoding.md R82).
One sign bit, then the exponent field, then `fracBits` fraction bits, read as IEEE 754 reads its binary formats (log 2). -/
structure NumFormat where
  /-- The width of the fraction field. -/
  fracBits : Nat
  rounding : Rounding
deriving DecidableEq, Repr

/-- The width of the exponent field. -/
abbrev NumFormat.expBits (n : NumFormat) : Nat := 31 - n.fracBits

/-- IEEE 754 binary32, rounded to nearest with ties to even: the default of R6. -/
def NumFormat.binary32 : NumFormat where
  fracBits := 23
  rounding := .nearestEven

/-- A format in which the literals of the rules, 2.0 and 100.0, are numbers (log 2). -/
def NumFormat.wf (n : NumFormat) : Bool := decide (4 ≤ n.fracBits) && decide (n.fracBits ≤ 27)

/-! ### The numberings -/

/-- The command ids of the two handlers (30_encoding.md R87, R88). -/
structure CommandIds where
  readStatus : Byte
  setSp : Byte
  setCv : Byte
  setKp : Byte
  setKi : Byte
  setKd : Byte
  setPvMin : Byte
  setPvMax : Byte
  setMode : Byte
  readComposite : Byte
  setOuterMode : Byte
  setCtrlSp : Byte
  setInnerMode : Byte
deriving DecidableEq, Repr

/-- The numbers of 30_encoding.md R87 and R88 (92_eei_decisions.md D26). -/
def CommandIds.default : CommandIds where
  readStatus := 0x00#8
  setSp := 0x01#8
  setCv := 0x02#8
  setKp := 0x03#8
  setKi := 0x04#8
  setKd := 0x05#8
  setPvMin := 0x06#8
  setPvMax := 0x07#8
  setMode := 0x08#8
  readComposite := 0x10#8
  setOuterMode := 0x11#8
  setCtrlSp := 0x12#8
  setInnerMode := 0x13#8

/-- The ids of the PID command set (30_encoding.md R87). -/
def CommandIds.pid (k : CommandIds) : List Byte :=
  [k.readStatus, k.setSp, k.setCv, k.setKp, k.setKi, k.setKd, k.setPvMin, k.setPvMax, k.setMode]

/-- The ids of the controller-level command set (30_encoding.md R88). -/
def CommandIds.controller (k : CommandIds) : List Byte := [k.readComposite, k.setOuterMode, k.setCtrlSp, k.setInnerMode]

/-- Every command id (30_encoding.md R89 (b)). -/
def CommandIds.all (k : CommandIds) : List Byte := k.pid ++ k.controller

/-- The mode codes (30_encoding.md R92). -/
structure ModeCodes where
  pidOff : Byte
  pidManual : Byte
  pidAuto : Byte
  outerOff : Byte
  outerOperatorManual : Byte
  outerOperatorAuto : Byte
  outerProgrammedAuto : Byte
  innerOff : Byte
  innerBoost : Byte
  innerFeedForward : Byte
  innerClosedLoop : Byte
deriving DecidableEq, Repr

/-- The numbers of 30_encoding.md R92 (92_eei_decisions.md D14). -/
def ModeCodes.default : ModeCodes where
  pidOff := 0#8
  pidManual := 1#8
  pidAuto := 2#8
  outerOff := 0#8
  outerOperatorManual := 1#8
  outerOperatorAuto := 2#8
  outerProgrammedAuto := 3#8
  innerOff := 0#8
  innerBoost := 1#8
  innerFeedForward := 2#8
  innerClosedLoop := 3#8

/-- The codes of the PID modes. -/
def ModeCodes.pid (m : ModeCodes) : List Byte := [m.pidOff, m.pidManual, m.pidAuto]

/-- The codes of the outer modes. -/
def ModeCodes.outer (m : ModeCodes) : List Byte :=
  [m.outerOff, m.outerOperatorManual, m.outerOperatorAuto, m.outerProgrammedAuto]

/-- The codes of the inner strategies. -/
def ModeCodes.inner (m : ModeCodes) : List Byte :=
  [m.innerOff, m.innerBoost, m.innerFeedForward, m.innerClosedLoop]

/-! ### Handlers -/

/-- The handlers the spec gives: the controller handler, whose unrecognised ids fall through to the PID handler
(43_commands.md R181), and the PID handler itself (R182). -/
inductive Handler where
  | controller
  | pid
deriving DecidableEq, Repr

/-- The command ids a handler knows (43_commands.md R181, R182). -/
def Handler.ids (k : CommandIds) : Handler → List Byte
  | .controller => k.all
  | .pid => k.pid

/-! ### The configuration -/

/-- The parameters a model takes as configuration arguments (00_scope.md R6). -/
structure Config where
  /-- `NUM`, the number format of every real field and of all arithmetic. -/
  num : NumFormat
  /-- `TIME_W`, the width in bits of `now`, `lastTick` and `lastFrameTime`. -/
  timeW : Nat
  /-- `COUNTER_W`, the width in bits of a counter, wrapping. -/
  counterW : Nat
  /-- The mode codes. -/
  modes : ModeCodes
  /-- The command ids. -/
  cmdIds : CommandIds
  /-- `MAGIC`, the frame magic constant (30_encoding.md R79). -/
  magic : U32
  /-- `RX_CAP`, receive-buffer capacity in bytes. -/
  rxCap : Nat
  /-- `TX_CAP`, the largest response frame in bytes. -/
  txCap : Nat
  /-- `OUT_CAP`, the handler's output-buffer capacity in bytes. -/
  outCap : Nat
  /-- The static handler table, one entry for each object-id slot, `none` an unbound slot (10_state.md R33). -/
  handlers : List (Option Handler)
  /-- `TICKS_PER_SECOND`, the time base. -/
  ticksPerSecond : Nat
  /-- `LIVENESS_WINDOW`, in ticks. -/
  livenessWindow : Nat
  /-- `DEFAULT_PV_MIN` and `DEFAULT_PV_MAX`, the safe default scaling range. -/
  defaultPvMin : F32
  defaultPvMax : F32
  /-- The gains, the scaling range and the arbiter's setpoint at RESET. -/
  initKp : F32
  initKi : F32
  initKd : F32
  initPvMin : F32
  initPvMax : F32
  initSp : F32
  /-- The arbiter's tuning constants at RESET (10_state.md R28). -/
  deadband : F32
  boostErrThreshold : F32
  boostCv : F32
  ffCv : F32
deriving DecidableEq, Repr

/-- The default column of 00_scope.md R6. The binary32 patterns are 0.0 = 0, 30.0 = 41F00000, 100.0 = 42C80000,
150.0 = 43160000, 160.0 = 43200000 (93_implementation_defined.md G2). -/
def Config.default : Config where
  num := .binary32
  timeW := 32
  counterW := 32
  modes := .default
  cmdIds := .default
  magic := 0xDEADBEEF#32
  rxCap := 128
  txCap := 64
  outCap := 64
  handlers := [some .controller, none, none, none]
  ticksPerSecond := 1000
  livenessWindow := 2000
  defaultPvMin := 0x00000000#32
  defaultPvMax := 0x42C80000#32
  initKp := 0x00000000#32
  initKi := 0x00000000#32
  initKd := 0x00000000#32
  initPvMin := 0x00000000#32
  initPvMax := 0x42C80000#32
  initSp := 0x00000000#32
  deadband := 0x43160000#32
  boostErrThreshold := 0x43200000#32
  boostCv := 0x42C80000#32
  ffCv := 0x41F00000#32

/-- `HANDLER_TABLE_SIZE`, the number of object-id slots: the length of the table. -/
abbrev Config.handlerTableSize (c : Config) : Nat := c.handlers.length

/-- `HEADER_SIZE` (30_encoding.md R76). -/
abbrev headerSize : Nat := 10

/-- Well-formedness of a configuration as 00_scope.md R6 has it, in the paragraph under its table. -/
def Config.bounds (c : Config) : Bool :=
  decide (headerSize ≤ c.rxCap) && decide (headerSize ≤ c.txCap) && decide (c.rxCap ≤ 65535) &&
    decide (1 ≤ c.handlerTableSize) && decide (1 ≤ c.ticksPerSecond)

/-- Codes and ids that name one thing each. R6's paragraph does not say so (log 2). -/
def Config.codesDistinct (c : Config) : Bool :=
  decide c.cmdIds.all.Nodup && decide c.modes.pid.Nodup && decide c.modes.outer.Nodup && decide c.modes.inner.Nodup

/-- A well-formed configuration: R6's bounds, distinct codes, and a number format with the rules' literals. -/
def Config.wf (c : Config) : Bool := c.bounds && c.codesDistinct && c.num.wf

/-- How many bytes a time of `TIME_W` bits takes in a host operation's record (log 5). -/
def Config.timeBytes (c : Config) : Nat := (c.timeW + 7) / 8

/-- The lookup of an object id in the handler table: `none` for an unbound slot, and for an id at or above the table's size
(30_encoding.md R86, 42_transport.md R158). -/
def Config.handlerOf (c : Config) (objectId : Byte) : Option Handler := c.handlers.getD objectId.toNat none

/-! Selector codes of the host operations (30_encoding.md R70). -/

abbrev Op.reset : Byte := 0x00#8
abbrev Op.rx : Byte := 0x01#8
abbrev Op.poll : Byte := 0x02#8
abbrev Op.tick : Byte := 0x03#8
abbrev Op.ok : Byte := 0x04#8
abbrev Op.readCounters : Byte := 0x05#8
abbrev Op.txDrain : Byte := 0x06#8

/-- The arithmetic operations of 00_scope.md R8 that can produce a NaN. -/
inductive FloatOp where
  | add
  | sub
  | mul
  | div
deriving DecidableEq, Repr

/-- FREE VALUE (log 3). A pattern whose sign and fraction bits are those of the NaN that an operation on these operands
produces. R8 names IEEE 754, which fixes that the result is a NaN and not which one. It has no body, so nothing can be
proved of it. -/
opaque Config.freeNaN : NumFormat → FloatOp → F32 → F32 → BitVec 32

end Sys2Proof
end

