-- ==== Sys2Proof/Syntax.lean ====
section
/-! DEFINITION. The instruction type: one constructor per row of spec/opcode_table.json. -/

namespace Sys2Proof

/-- Header bytes 6 and 7 of a frame: its sequence byte and its object id (30_encoding.md R75). -/
structure Tag where
  seq : Byte
  objectId : Byte
deriving DecidableEq, Repr

/-- The instructions. The first seven are the host operations of 30_encoding.md R70. The rest are what the key
objectId:cmdId of a frame selects (30_encoding.md R86 to R89), each with the frame's sequence byte, object id, flags byte and
payload. The table's command rows show object id 0, to which the default handler table binds them. A time `now` is a
number of ticks (00_scope.md R6, `TIME_W`). -/
inductive Instr where
  /-- RESET, 70_reset_and_hazards.md R230. -/
  | reset
  /-- RX, 42_transport.md R166. -/
  | rx (bytes : List Byte)
  /-- POLL, 42_transport.md R150. -/
  | poll (now : Nat)
  /-- TICK, 41_arbiter.md R130. -/
  | tick (pv : F32) (now : Nat)
  /-- OK, 42_transport.md R163. -/
  | ok (now : Nat)
  /-- READ_COUNTERS, 42_transport.md R164. -/
  | readCounters
  /-- TX_DRAIN, 42_transport.md R165. -/
  | txDrain
  /-- READ_STATUS, 43_commands.md R184. -/
  | readStatus (tag : Tag) (flags : Byte) (payload : List Byte)
  /-- SET_SP, 43_commands.md R185. -/
  | setSp (tag : Tag) (flags : Byte) (payload : List Byte)
  /-- SET_CV, 43_commands.md R186. -/
  | setCv (tag : Tag) (flags : Byte) (payload : List Byte)
  /-- SET_KP, 43_commands.md R187. -/
  | setKp (tag : Tag) (flags : Byte) (payload : List Byte)
  /-- SET_KI, 43_commands.md R188. -/
  | setKi (tag : Tag) (flags : Byte) (payload : List Byte)
  /-- SET_KD, 43_commands.md R189. -/
  | setKd (tag : Tag) (flags : Byte) (payload : List Byte)
  /-- SET_PVMIN, 43_commands.md R190. -/
  | setPvMin (tag : Tag) (flags : Byte) (payload : List Byte)
  /-- SET_PVMAX, 43_commands.md R191. -/
  | setPvMax (tag : Tag) (flags : Byte) (payload : List Byte)
  /-- SET_MODE, 43_commands.md R192. -/
  | setMode (tag : Tag) (flags : Byte) (payload : List Byte)
  /-- READ_COMPOSITE, 43_commands.md R193. -/
  | readComposite (tag : Tag) (flags : Byte) (payload : List Byte)
  /-- SET_OUTER_MODE, 43_commands.md R194. -/
  | setOuterMode (tag : Tag) (flags : Byte) (payload : List Byte)
  /-- SET_CTRL_SP, 43_commands.md R195. -/
  | setCtrlSp (tag : Tag) (flags : Byte) (payload : List Byte)
  /-- SET_INNER_MODE, 43_commands.md R196. -/
  | setInnerMode (tag : Tag) (flags : Byte) (payload : List Byte)
  /-- NO_HANDLER, 42_transport.md R158: the object id is unbound or out of range. -/
  | noHandler (seq objectId cmdId flags : Byte) (payload : List Byte)
  /-- UNKNOWN_CMD, 43_commands.md R182: an object id with a handler, and a command id the handler does not know. -/
  | unknownCmd (tag : Tag) (cmdId flags : Byte) (payload : List Byte)
deriving DecidableEq, Repr

/-- Where an instruction's encoding lives: a host operation's record, or a frame of the byte stream (30_encoding.md,
introduction). -/
inductive Space where
  | host
  | wire
deriving DecidableEq, Repr

/-- The space of each instruction. -/
def Instr.space : Instr → Space
  | .reset => .host
  | .rx _ => .host
  | .poll _ => .host
  | .tick _ _ => .host
  | .ok _ => .host
  | .readCounters => .host
  | .txDrain => .host
  | .readStatus _ _ _ => .wire
  | .setSp _ _ _ => .wire
  | .setCv _ _ _ => .wire
  | .setKp _ _ _ => .wire
  | .setKi _ _ _ => .wire
  | .setKd _ _ _ => .wire
  | .setPvMin _ _ _ => .wire
  | .setPvMax _ _ _ => .wire
  | .setMode _ _ _ => .wire
  | .readComposite _ _ _ => .wire
  | .setOuterMode _ _ _ => .wire
  | .setCtrlSp _ _ _ => .wire
  | .setInnerMode _ _ _ => .wire
  | .noHandler _ _ _ _ _ => .wire
  | .unknownCmd _ _ _ _ => .wire

/-- A decoded frame header with its payload (30_encoding.md R75). The magic and the length are not kept: they are what
POLL checked. -/
structure Frame where
  seq : Byte
  objectId : Byte
  cmdId : Byte
  flags : Byte
  payload : List Byte
deriving DecidableEq, Repr

end Sys2Proof
end

