-- ==== Sys2Proof/WellFormed.lean ====
section
/-! DEFINITION. Which terms of `Instr` an encoding exists for, under a configuration. -/

namespace Sys2Proof

/-- The payload of a frame the receive buffer can hold: `totalLength ≤ RX_CAP` (30_encoding.md R77). -/
def payloadFits (c : Config) (payload : List Byte) : Bool :=
  decide (headerSize + payload.length ≤ c.rxCap)

/-- A time of `TIME_W` bits (00_scope.md R6). -/
def timeFits (c : Config) (now : Nat) : Bool := decide (now < 2 ^ c.timeW)

/-- The handler bound to an object id knows a command id (43_commands.md R181, R182). -/
def knows (c : Config) (objectId cmdId : Byte) : Bool :=
  match c.handlerOf objectId with
  | none => false
  | some h => (h.ids c.cmdIds).contains cmdId

/-- The checks: a frame fits the receive buffer (30_encoding.md R77); a command's object id is bound to a handler that knows it
(30_encoding.md R86 to R88); NO_HANDLER names an object without a handler, and UNKNOWN_CMD an object whose handler does not
know the command id (30_encoding.md R89). A host time has `TIME_W` bits (00_scope.md R6); every other argument of a host
operation is free (30_encoding.md R71 to R74). -/
def Instr.wf (c : Config) : Instr → Bool
  | .reset => true
  | .rx _ => true
  | .poll now => timeFits c now
  | .tick _ now => timeFits c now
  | .ok now => timeFits c now
  | .readCounters => true
  | .txDrain => true
  | .readStatus tag _ p => payloadFits c p && knows c tag.objectId c.cmdIds.readStatus
  | .setSp tag _ p => payloadFits c p && knows c tag.objectId c.cmdIds.setSp
  | .setCv tag _ p => payloadFits c p && knows c tag.objectId c.cmdIds.setCv
  | .setKp tag _ p => payloadFits c p && knows c tag.objectId c.cmdIds.setKp
  | .setKi tag _ p => payloadFits c p && knows c tag.objectId c.cmdIds.setKi
  | .setKd tag _ p => payloadFits c p && knows c tag.objectId c.cmdIds.setKd
  | .setPvMin tag _ p => payloadFits c p && knows c tag.objectId c.cmdIds.setPvMin
  | .setPvMax tag _ p => payloadFits c p && knows c tag.objectId c.cmdIds.setPvMax
  | .setMode tag _ p => payloadFits c p && knows c tag.objectId c.cmdIds.setMode
  | .readComposite tag _ p => payloadFits c p && knows c tag.objectId c.cmdIds.readComposite
  | .setOuterMode tag _ p => payloadFits c p && knows c tag.objectId c.cmdIds.setOuterMode
  | .setCtrlSp tag _ p => payloadFits c p && knows c tag.objectId c.cmdIds.setCtrlSp
  | .setInnerMode tag _ p => payloadFits c p && knows c tag.objectId c.cmdIds.setInnerMode
  | .noHandler _ obj _ _ p => payloadFits c p && (c.handlerOf obj).isNone
  | .unknownCmd tag cmd _ p => payloadFits c p && (c.handlerOf tag.objectId).isSome && !(knows c tag.objectId cmd)

end Sys2Proof
end

