-- ==== Sys2Proof/Decode.lean ====
section
/-! DEFINITION. The field codecs (00_scope.md R10), the decoder of host-operation records and of frames, total on any
bytes and rejecting by name, and after it the encoder. -/

namespace Sys2Proof

/-! ### Field codecs, 00_scope.md R10 -/

/-- `u16le(b0, b1) = b0 + 256·b1`. -/
def u16le (b0 b1 : Byte) : Nat := b0.toNat + 256 * b1.toNat

/-- `u32le(b0..b3) = b0 + 2^8·b1 + 2^16·b2 + 2^24·b3`. -/
def u32le (b0 b1 b2 b3 : Byte) : U32 :=
  BitVec.ofNat 32 (b0.toNat + 2 ^ 8 * b1.toNat + 2 ^ 16 * b2.toNat + 2 ^ 24 * b3.toNat)

/-- `f32le(b0..b3)`: the pattern `u32le` gives, with no canonicalisation. -/
def f32le (b0 b1 b2 b3 : Byte) : F32 := u32le b0 b1 b2 b3

/-- `le16(v)`, least significant byte first. -/
def le16 (v : Nat) : List Byte := [BitVec.ofNat 8 v, BitVec.ofNat 8 (v / 2 ^ 8)]

/-- `le32(v)`, least significant byte first. -/
def le32 (v : U32) : List Byte :=
  [BitVec.ofNat 8 v.toNat, BitVec.ofNat 8 (v.toNat / 2 ^ 8), BitVec.ofNat 8 (v.toNat / 2 ^ 16),
    BitVec.ofNat 8 (v.toNat / 2 ^ 24)]

/-- `lef32(x)`: the stored pattern, least significant byte first. -/
def lef32 (x : F32) : List Byte := le32 x

/-- The number whose bytes these are, least significant first. -/
def leValue : List Byte → Nat
  | [] => 0
  | b :: rest => b.toNat + 2 ^ 8 * leValue rest

/-- The `k` low bytes of a number, least significant first. -/
def leBytes : Nat → Nat → List Byte
  | 0, _ => []
  | k + 1, v => BitVec.ofNat 8 v :: leBytes k (v / 2 ^ 8)

/-- The byte at an index of a byte list (00_scope.md R7). The rules read only below the length they checked. -/
def byteAt (b : List Byte) (i : Nat) : Byte := b.getD i 0#8

/-! ### Results of decoding -/

/-- Why bytes are no instruction. -/
inductive DecodeError where
  /-- A host-operation record with no selector. -/
  | emptyRecord
  /-- A selector outside 0 to 6: there is no such operation (30_encoding.md R70). -/
  | unknownOperation (code : Byte)
  /-- A known selector with the wrong number of argument bytes, or with a time wider than `TIME_W` (log 10). -/
  | badArguments (code : Byte)
  /-- Fewer than `HEADER_SIZE` bytes (42_transport.md R154). -/
  | shortHeader
  /-- The first four bytes are not the magic (30_encoding.md R77). -/
  | badMagic
  /-- The declared length is below `HEADER_SIZE` or above `RX_CAP` (42_transport.md R155). -/
  | badLength
  /-- The bytes are not as many as the declared length says (42_transport.md R156). -/
  | lengthMismatch
deriving DecidableEq, Repr

/-- The decoder's answer. -/
inductive Decoded where
  | instr (i : Instr)
  | rejected (why : DecodeError)
deriving DecidableEq, Repr

/-- The instruction, if there is one. -/
def Decoded.toOption : Decoded → Option Instr
  | .instr i => some i
  | .rejected _ => none

/-! ### Host operations, 30_encoding.md R70 -/

/-- A time argument: `TIME_W` bits in whole bytes (00_scope.md R6, log 5). -/
def readTime (c : Config) (args : List Byte) : Option Nat :=
  if args.length = c.timeBytes ∧ leValue args < 2 ^ c.timeW then some (leValue args) else none

/-- Reads a host operation from its record: the selector of 30_encoding.md R70, then the arguments in the order of that
table, a time or an F32 in the codec of 00_scope.md R10, or the bytes of RX (log 5). -/
def decodeOp (c : Config) : List Byte → Decoded
  | [] => .rejected .emptyRecord
  | code :: args =>
    if code = Op.reset then
      match args with
      | [] => .instr .reset
      | _ :: _ => .rejected (.badArguments code)
    else if code = Op.rx then .instr (.rx args)
    else if code = Op.poll then
      match readTime c args with
      | some now => .instr (.poll now)
      | none => .rejected (.badArguments code)
    else if code = Op.tick then
      match args with
      | p0 :: p1 :: p2 :: p3 :: rest =>
        match readTime c rest with
        | some now => .instr (.tick (f32le p0 p1 p2 p3) now)
        | none => .rejected (.badArguments code)
      | _ => .rejected (.badArguments code)
    else if code = Op.ok then
      match readTime c args with
      | some now => .instr (.ok now)
      | none => .rejected (.badArguments code)
    else if code = Op.readCounters then
      match args with
      | [] => .instr .readCounters
      | _ :: _ => .rejected (.badArguments code)
    else if code = Op.txDrain then
      match args with
      | [] => .instr .txDrain
      | _ :: _ => .rejected (.badArguments code)
    else .rejected (.unknownOperation code)

/-! ### Frames, 30_encoding.md R75, R86 to R89 -/

/-- The tag of a frame's header. -/
abbrev Frame.tag (f : Frame) : Tag := ⟨f.seq, f.objectId⟩

/-- The PID handler's selection by command id (43_commands.md R182). -/
def selectPid (k : CommandIds) (f : Frame) : Instr :=
  if f.cmdId = k.readStatus then .readStatus f.tag f.flags f.payload
  else if f.cmdId = k.setSp then .setSp f.tag f.flags f.payload
  else if f.cmdId = k.setCv then .setCv f.tag f.flags f.payload
  else if f.cmdId = k.setKp then .setKp f.tag f.flags f.payload
  else if f.cmdId = k.setKi then .setKi f.tag f.flags f.payload
  else if f.cmdId = k.setKd then .setKd f.tag f.flags f.payload
  else if f.cmdId = k.setPvMin then .setPvMin f.tag f.flags f.payload
  else if f.cmdId = k.setPvMax then .setPvMax f.tag f.flags f.payload
  else if f.cmdId = k.setMode then .setMode f.tag f.flags f.payload
  else .unknownCmd f.tag f.cmdId f.flags f.payload

/-- The controller handler's selection; unrecognised ids fall through to the PID handler (43_commands.md R181). -/
def selectController (k : CommandIds) (f : Frame) : Instr :=
  if f.cmdId = k.readComposite then .readComposite f.tag f.flags f.payload
  else if f.cmdId = k.setOuterMode then .setOuterMode f.tag f.flags f.payload
  else if f.cmdId = k.setCtrlSp then .setCtrlSp f.tag f.flags f.payload
  else if f.cmdId = k.setInnerMode then .setInnerMode f.tag f.flags f.payload
  else selectPid k f

/-- Which instruction a decoded frame selects: the object id is looked up before the command id (42_transport.md R158,
60_exceptions.md R217). Every frame selects one. -/
def select (c : Config) (f : Frame) : Instr :=
  match c.handlerOf f.objectId with
  | none => .noHandler f.seq f.objectId f.cmdId f.flags f.payload
  | some .controller => selectController c.cmdIds f
  | some .pid => selectPid c.cmdIds f

/-- The header fields and payload of a whole frame's bytes (30_encoding.md R75, R78). -/
def frameOfBytes (b : List Byte) : Frame where
  seq := byteAt b 6
  objectId := byteAt b 7
  cmdId := byteAt b 8
  flags := byteAt b 9
  payload := b.drop headerSize

/-- The declared length, header bytes 4 and 5 (30_encoding.md R75, R91). -/
def declaredLength (b : List Byte) : Nat := u16le (byteAt b 4) (byteAt b 5)

/-- Reads the instruction a whole frame selects: well-formed by 30_encoding.md R77, and exactly as long as it declares. -/
def decodeFrame (c : Config) (b : List Byte) : Decoded :=
  if b.length < headerSize then .rejected .shortHeader
  else if b.take 4 ≠ le32 c.magic then .rejected .badMagic
  else if declaredLength b < headerSize ∨ c.rxCap < declaredLength b then .rejected .badLength
  else if b.length ≠ declaredLength b then .rejected .lengthMismatch
  else .instr (select c (frameOfBytes b))

/-- The decoder, total on any bytes of either space. -/
def decode (c : Config) (sp : Space) (b : List Byte) : Decoded :=
  match sp with
  | .host => decodeOp c b
  | .wire => decodeFrame c b

/-! ### The encoder -/

/-- The bytes of a frame: `le32(MAGIC) ++ le16(10 + len(payload)) ++ [seq, obj, cmd, flags] ++ payload` (30_encoding.md
R90, R95). Requests and responses have the same envelope. -/
def frameBytes (c : Config) (f : Frame) : List Byte :=
  le32 c.magic ++ le16 (headerSize + f.payload.length) ++ [f.seq, f.objectId, f.cmdId, f.flags] ++ f.payload

/-- The words of an instruction: a host operation's record, or a wire command's frame. -/
def encode (c : Config) : Instr → List Byte
  | .reset => [Op.reset]
  | .rx bytes => Op.rx :: bytes
  | .poll now => Op.poll :: leBytes c.timeBytes now
  | .tick pv now => Op.tick :: (lef32 pv ++ leBytes c.timeBytes now)
  | .ok now => Op.ok :: leBytes c.timeBytes now
  | .readCounters => [Op.readCounters]
  | .txDrain => [Op.txDrain]
  | .readStatus tag g p => frameBytes c ⟨tag.seq, tag.objectId, c.cmdIds.readStatus, g, p⟩
  | .setSp tag g p => frameBytes c ⟨tag.seq, tag.objectId, c.cmdIds.setSp, g, p⟩
  | .setCv tag g p => frameBytes c ⟨tag.seq, tag.objectId, c.cmdIds.setCv, g, p⟩
  | .setKp tag g p => frameBytes c ⟨tag.seq, tag.objectId, c.cmdIds.setKp, g, p⟩
  | .setKi tag g p => frameBytes c ⟨tag.seq, tag.objectId, c.cmdIds.setKi, g, p⟩
  | .setKd tag g p => frameBytes c ⟨tag.seq, tag.objectId, c.cmdIds.setKd, g, p⟩
  | .setPvMin tag g p => frameBytes c ⟨tag.seq, tag.objectId, c.cmdIds.setPvMin, g, p⟩
  | .setPvMax tag g p => frameBytes c ⟨tag.seq, tag.objectId, c.cmdIds.setPvMax, g, p⟩
  | .setMode tag g p => frameBytes c ⟨tag.seq, tag.objectId, c.cmdIds.setMode, g, p⟩
  | .readComposite tag g p => frameBytes c ⟨tag.seq, tag.objectId, c.cmdIds.readComposite, g, p⟩
  | .setOuterMode tag g p => frameBytes c ⟨tag.seq, tag.objectId, c.cmdIds.setOuterMode, g, p⟩
  | .setCtrlSp tag g p => frameBytes c ⟨tag.seq, tag.objectId, c.cmdIds.setCtrlSp, g, p⟩
  | .setInnerMode tag g p => frameBytes c ⟨tag.seq, tag.objectId, c.cmdIds.setInnerMode, g, p⟩
  | .noHandler q obj cmd g p => frameBytes c ⟨q, obj, cmd, g, p⟩
  | .unknownCmd tag cmd g p => frameBytes c ⟨tag.seq, tag.objectId, cmd, g, p⟩

/-! ### The opcode table's words -/

/-- How many argument bytes the record of a selector has, RX's list being empty (30_encoding.md R70). -/
def argumentBytes (c : Config) (code : Byte) : Nat :=
  if code = Op.poll then c.timeBytes
  else if code = Op.tick then 4 + c.timeBytes
  else if code = Op.ok then c.timeBytes
  else 0

/-- How many payload bytes a command takes (30_encoding.md R87, R88). Read commands and the fallback rows take any, here none,
and a host operation has no payload. -/
def payloadWidth : Instr → Nat
  | .reset => 0
  | .rx _ => 0
  | .poll _ => 0
  | .tick _ _ => 0
  | .ok _ => 0
  | .readCounters => 0
  | .txDrain => 0
  | .readStatus _ _ _ => 0
  | .setSp _ _ _ => 4
  | .setCv _ _ _ => 4
  | .setKp _ _ _ => 4
  | .setKi _ _ _ => 4
  | .setKd _ _ _ => 4
  | .setPvMin _ _ _ => 4
  | .setPvMax _ _ _ => 4
  | .setMode _ _ _ => 1
  | .readComposite _ _ _ => 0
  | .setOuterMode _ _ _ => 1
  | .setCtrlSp _ _ _ => 4
  | .setInnerMode _ _ _ => 1
  | .noHandler _ _ _ _ _ => 0
  | .unknownCmd _ _ _ _ => 0

/-- The record of the host operation whose selector is the 8-bit table word `w`, its argument bits zero. -/
def tableRecord (c : Config) (w : Nat) : List Byte :=
  BitVec.ofNat 8 w :: List.replicate (argumentBytes c (BitVec.ofNat 8 w)) 0#8

/-- The frame whose key objectId:cmdId is the 16-bit table word `w`: bits 15 to 8 are header byte 7 and bits 7 to 0 header
byte 8 (the table's format line). The sequence byte, the flags and the payload are zero. -/
def tableFrame (c : Config) (w : Nat) : List Byte :=
  let cmdId : Byte := BitVec.ofNat 8 w
  let objectId : Byte := BitVec.ofNat 8 (w / 2 ^ 8)
  let width := payloadWidth (select c ⟨0#8, objectId, cmdId, 0#8, []⟩)
  frameBytes c ⟨0#8, objectId, cmdId, 0#8, List.replicate width 0#8⟩

/-- The instruction the decoder reads from an opcode-table word: 8-bit words are host operations and 16-bit words are
wire keys (the table's two formats), under the default parameters the table is written for. The table has no other width. -/
def decodeTableWord (nbits w : Nat) : Option Instr :=
  if nbits = 8 then (decode Config.default .host (tableRecord Config.default w)).toOption
  else if nbits = 16 then (decode Config.default .wire (tableFrame Config.default w)).toOption
  else none

end Sys2Proof
end

