-- ==== Sys2Proof/Machine/Numbers.lean ====
section
/-! DEFINITION. The arithmetic and comparisons of 00_scope.md R8 in the number format `NUM` of R6, and clampF of R11. A number is a
32-bit pattern. Each operation computes exactly over the integers and rounds once (log 21). -/

namespace Sys2Proof.Machine

/-- A value inside a computation: a NaN, with the pattern it has, or a pattern that is no NaN. The tag lets a comparison
with a NaN be decided when the NaN's pattern is the free value of log 3. -/
inductive Val where
  | nan (bits : F32)
  | num (bits : F32)
deriving DecidableEq, Repr

/-- The pattern a register stores. -/
def Val.bits : Val → F32
  | .nan b => b
  | .num b => b

/-! ### Fields of a pattern -/

/-- The exponent field. -/
def expField (n : NumFormat) (b : F32) : Nat := b.toNat / 2 ^ n.fracBits % 2 ^ n.expBits

/-- The fraction field. -/
def fracField (n : NumFormat) (b : F32) : Nat := b.toNat % 2 ^ n.fracBits

/-- The sign, bit 31. -/
def signBit (b : F32) : Bool := decide (2 ^ 31 ≤ b.toNat)

/-- Bits 30 to 0: the pattern with the sign cleared, as a number. -/
def magnitude (b : F32) : Nat := b.toNat % 2 ^ 31

/-- The magnitude of an infinity: exponent field all ones and fraction zero. -/
def infMagnitude (n : NumFormat) : Nat := 2 ^ 31 - 2 ^ n.fracBits

/-- A NaN: exponent field all ones and a fraction that is not zero. -/
def isNaN (n : NumFormat) (b : F32) : Bool := decide (infMagnitude n < magnitude b)

/-- An infinity. -/
def isInf (n : NumFormat) (b : F32) : Bool := decide (magnitude b = infMagnitude n)

/-- A zero of either sign. -/
def isZero (b : F32) : Bool := decide (magnitude b = 0)

/-- The significand of a finite pattern, as an integer; the hidden bit is present unless the exponent field is 0. -/
def significand (n : NumFormat) (b : F32) : Nat :=
  if expField n b = 0 then fracField n b else fracField n b + 2 ^ n.fracBits

/-- The weight of the last bit of a subnormal number, the least of the format: `1 − bias − fracBits`, where the exponent
bias is `2 ^ (expBits − 1) − 1`. -/
def leastWeight (n : NumFormat) : Int := 2 - ((2 ^ (n.expBits - 1) : Nat) : Int) - (n.fracBits : Int)

/-- The weight of the significand's last bit: the value is `significand · 2 ^ lastBit`. -/
def lastBit (n : NumFormat) (b : F32) : Int := ((expField n b - 1 : Nat) : Int) + leastWeight n

/-- The value of a register's pattern. -/
def Val.ofBits (n : NumFormat) (b : F32) : Val := if isNaN n b then .nan b else .num b

/-- The pattern of a sign and a magnitude. -/
def withSign (neg : Bool) (mag : Nat) : F32 := BitVec.ofNat 32 (if neg then 2 ^ 31 + mag else mag)

/-! ### Sign operations, 00_scope.md R8: `−x` flips the sign bit and `|x|` clears it -/

/-- `−x` on a pattern. -/
def negBits (b : F32) : F32 := b ^^^ 0x80000000#32

/-- `|x|` on a pattern. -/
def absBits (b : F32) : F32 := b &&& 0x7FFFFFFF#32

/-- `−x`. -/
def fneg : Val → Val
  | .nan b => .nan (negBits b)
  | .num b => .num (negBits b)

/-- `|x|`. -/
def fabs : Val → Val
  | .nan b => .nan (absBits b)
  | .num b => .num (absBits b)

/-! ### Comparisons, false when an operand is a NaN -/

/-- The place of a pattern that is no NaN in the order of the reals with the infinities: both zeros have place 0. -/
def orderKey (b : F32) : Int := if signBit b then -(magnitude b : Int) else (magnitude b : Int)

/-- `a < b`. -/
def flt : Val → Val → Bool
  | .num a, .num b => decide (orderKey a < orderKey b)
  | .num _, .nan _ => false
  | .nan _, .num _ => false
  | .nan _, .nan _ => false

/-- `a ≤ b`. -/
def fle : Val → Val → Bool
  | .num a, .num b => decide (orderKey a ≤ orderKey b)
  | .num _, .nan _ => false
  | .nan _, .num _ => false
  | .nan _, .nan _ => false

/-- `a = b`. -/
def feq : Val → Val → Bool
  | .num a, .num b => decide (orderKey a = orderKey b)
  | .num _, .nan _ => false
  | .nan _, .num _ => false
  | .nan _, .nan _ => false

/-! ### Rounding -/

/-- Whether the integer part `q` of a magnitude goes up by one, when `r` out of `d` is left below it. -/
def roundsUp (rd : Rounding) (neg : Bool) (q r d : Nat) : Bool :=
  match rd with
  | .nearestEven => decide (d < 2 * r) || (decide (2 * r = d) && decide (q % 2 = 1))
  | .towardZero => false
  | .towardPositive => !neg && decide (r ≠ 0)
  | .towardNegative => neg && decide (r ≠ 0)

/-- Whether a magnitude past the largest finite number becomes that number, and not the infinity. -/
def staysFinite (rd : Rounding) (neg : Bool) : Bool :=
  match rd with
  | .nearestEven => false
  | .towardZero => true
  | .towardPositive => neg
  | .towardNegative => !neg

/-- `m / 2 ^ k` rounded to an integer. -/
def roundShift (rd : Rounding) (neg : Bool) (m k : Nat) : Nat :=
  let q := m / 2 ^ k
  if roundsUp rd neg q (m % 2 ^ k) (2 ^ k) then q + 1 else q

/-- The weight of the last bit a result near `m · 2 ^ e` keeps: all the significant bits of the format, and never below its
least weight. -/
def roundWeight (n : NumFormat) (m : Nat) (e : Int) : Int :=
  max ((Nat.log2 m : Int) + e - (n.fracBits : Int)) (leastWeight n)

/-- The significand of `m · 2 ^ e` at a weight, rounded. -/
def roundTo (rd : Rounding) (neg : Bool) (m : Nat) (e w : Int) : Nat :=
  if w ≤ e then m * 2 ^ (e - w).toNat else roundShift rd neg m (w - e).toNat

/-- The magnitude of `m · 2 ^ e` rounded. Adding the significand to the exponent field lets a significand that rounded up
to the next power of two carry into the exponent, and what passes the largest finite number is the infinity or, where the
direction keeps it finite, the largest finite number. -/
def roundMagnitude (n : NumFormat) (neg : Bool) (m : Nat) (e : Int) : Nat :=
  let w := roundWeight n m e
  let top := if staysFinite n.rounding neg then infMagnitude n - 1 else infMagnitude n
  min (roundTo n.rounding neg m e w + (w - leastWeight n).toNat * 2 ^ n.fracBits) top

/-- `± m · 2 ^ e` rounded to the format; zero keeps the sign. -/
def roundPack (n : NumFormat) (neg : Bool) (m : Nat) (e : Int) : F32 :=
  withSign neg (if m = 0 then 0 else roundMagnitude n neg m e)

/-! ### NaN results -/

/-- The NaN an operation produces: exponent field all ones, sign and fraction free (log 3). A free fraction of zero
would be an infinity, so it stands for the fraction whose first bit is set. -/
def nanPattern (n : NumFormat) (free : BitVec 32) : F32 :=
  let frac := fracField n free
  withSign (signBit free) (infMagnitude n + (if frac = 0 then 2 ^ (n.fracBits - 1) else frac))

/-- The NaN result of an operation on two operands. -/
def nanResult (n : NumFormat) (op : FloatOp) (a b : Val) : Val := .nan (nanPattern n (Config.freeNaN n op a.bits b.bits))

/-! ### Arithmetic -/

/-- The exact value of a finite pattern, scaled by `2 ^ -e`, for an `e` at most its `lastBit`. -/
def scaledInt (n : NumFormat) (b : F32) (e : Int) : Int :=
  let m : Int := (significand n b * 2 ^ (lastBit n b - e).toNat : Nat)
  if signBit b then -m else m

/-- The sign of an exact zero sum: the operands' own sign when they agree, and otherwise + unless rounding is toward −∞. -/
def zeroSumSign (rd : Rounding) (a b : Bool) : Bool :=
  if a = b then a else decide (rd = .towardNegative)

/-- The sum of two finite patterns. -/
def addFinite (n : NumFormat) (a b : F32) : F32 :=
  let e := min (lastBit n a) (lastBit n b)
  let sum := scaledInt n a e + scaledInt n b e
  if sum = 0 then withSign (zeroSumSign n.rounding (signBit a) (signBit b)) 0
  else roundPack n (decide (sum < 0)) sum.natAbs e

/-- The sum of two patterns that are no NaN, `none` for infinities of opposite sign. -/
def addNum (n : NumFormat) (a b : F32) : Option F32 :=
  if isInf n a then
    if isInf n b && (signBit a != signBit b) then none else some a
  else if isInf n b then some b
  else some (addFinite n a b)

/-- `a + b`. -/
def fadd (n : NumFormat) (a b : Val) : Val :=
  match a, b with
  | .num x, .num y =>
    match addNum n x y with
    | some r => .num r
    | none => nanResult n .add a b
  | .num _, .nan _ => nanResult n .add a b
  | .nan _, .num _ => nanResult n .add a b
  | .nan _, .nan _ => nanResult n .add a b

/-- `a − b`: the sum with the second operand's sign flipped. -/
def fsub (n : NumFormat) (a b : Val) : Val :=
  match a, b with
  | .num x, .num y =>
    match addNum n x (negBits y) with
    | some r => .num r
    | none => nanResult n .sub a b
  | .num _, .nan _ => nanResult n .sub a b
  | .nan _, .num _ => nanResult n .sub a b
  | .nan _, .nan _ => nanResult n .sub a b

/-- The product of two patterns that are no NaN, `none` for an infinity times a zero. -/
def mulNum (n : NumFormat) (a b : F32) : Option F32 :=
  let neg := signBit a != signBit b
  if isInf n a || isInf n b then
    if isZero a || isZero b then none else some (withSign neg (infMagnitude n))
  else some (roundPack n neg (significand n a * significand n b) (lastBit n a + lastBit n b))

/-- `a × b`. -/
def fmul (n : NumFormat) (a b : Val) : Val :=
  match a, b with
  | .num x, .num y =>
    match mulNum n x y with
    | some r => .num r
    | none => nanResult n .mul a b
  | .num _, .nan _ => nanResult n .mul a b
  | .nan _, .num _ => nanResult n .mul a b
  | .nan _, .nan _ => nanResult n .mul a b

/-- The quotient of two finite patterns, the second not zero. The integer quotient has more significant bits than the
format keeps, and a last bit is set below it when a remainder is left, so rounding it is rounding the exact quotient. -/
def divFinite (n : NumFormat) (a b : F32) : F32 :=
  let shift := 2 * n.fracBits + 4
  let dividend := significand n a * 2 ^ shift
  let q := dividend / significand n b
  let sticky := if dividend % significand n b = 0 then 0 else 1
  roundPack n (signBit a != signBit b) (2 * q + sticky) (lastBit n a - lastBit n b - (shift : Int) - 1)

/-- The quotient of two patterns that are no NaN, `none` for zero by zero and infinity by infinity. -/
def divNum (n : NumFormat) (a b : F32) : Option F32 :=
  let neg := signBit a != signBit b
  if isInf n a then
    if isInf n b then none else some (withSign neg (infMagnitude n))
  else if isInf n b then some (withSign neg 0)
  else if isZero b then
    if isZero a then none else some (withSign neg (infMagnitude n))
  else some (divFinite n a b)

/-- `a ÷ b`. -/
def fdiv (n : NumFormat) (a b : Val) : Val :=
  match a, b with
  | .num x, .num y =>
    match divNum n x y with
    | some r => .num r
    | none => nanResult n .div a b
  | .num _, .nan _ => nanResult n .div a b
  | .nan _, .num _ => nanResult n .div a b
  | .nan _, .nan _ => nanResult n .div a b

/-- `toF32(n)`: an integer rounded to the format. -/
def toF32 (n : NumFormat) (k : Int) : Val := .num (roundPack n (decide (k < 0)) k.natAbs 0)

/-! ### Literals of the rules, and clampF -/

/-- 0.0, in every format. -/
abbrev f32Zero : F32 := 0x00000000#32

/-- 2.0. -/
def f32Two (n : NumFormat) : F32 := roundPack n false 2 0

/-- 100.0. -/
def f32Hundred (n : NumFormat) : F32 := roundPack n false 100 0

/-- `clampF(x, lo, hi)` of 00_scope.md R11: a NaN gives `lo`, and −0.0 with `lo` = 0.0 stays −0.0. -/
def clampF (n : NumFormat) (x : Val) (lo hi : F32) : F32 :=
  match x with
  | .nan _ => lo
  | .num b =>
    if flt (.num b) (Val.ofBits n lo) then lo
    else if flt (Val.ofBits n hi) (.num b) then hi
    else b

/-- `clampF(x, 0.0, 100.0)`, the clamp of every write of Cv (10_state.md R22). -/
def clampPercent (n : NumFormat) (x : Val) : F32 := clampF n x f32Zero (f32Hundred n)

end Sys2Proof.Machine
end

