-- ==== Sys2Proof/Machine/Registers.lean ====
section
/-! DEFINITION. The state groups of 10_state.md R21 to R32, each with its value at RESET (70_reset_and_hazards.md R230), and the
range check of 40_pid.md R101 and 70_reset_and_hazards.md R231. -/

namespace Sys2Proof.Machine

/-- PidStatus, the wire-visible registers (10_state.md R21). -/
structure PidStatus where
  sp : F32
  pv : F32
  cv : F32
  kp : F32
  ki : F32
  kd : F32
  pvMin : F32
  pvMax : F32
  err : F32
  /-- Raw: the code of Off, Manual or Auto (30_encoding.md R92), any other byte is invalid (10_state.md R24). -/
  mode : Byte
deriving DecidableEq, Repr

/-- PidPending, the staging slots (10_state.md R25). `none` is "unset". -/
structure PidPending where
  sp : Option F32
  cv : Option F32
  kp : Option F32
  ki : Option F32
  kd : Option F32
  pvMin : Option F32
  pvMax : Option F32
  mode : Option Byte
deriving DecidableEq, Repr

/-- PidHistory, the internal registers (10_state.md R26). -/
structure PidHistory where
  err1 : F32
  err2 : F32
  /-- A time of `TIME_W` bits; 0 is "no prior tick yet". -/
  lastTick : Nat
deriving DecidableEq, Repr

/-- ControlState, the arbiter's registers (10_state.md R27) and tuning constants (R28). -/
structure ControlState where
  /-- Raw: the code of Off, OperatorManual, OperatorAuto or ProgrammedAuto (30_encoding.md R92). -/
  outer : Byte
  /-- Raw: the code of Off, Boost, FeedForward or ClosedLoop (30_encoding.md R92). -/
  inner : Byte
  sp : F32
  deadband : F32
  boostErrThreshold : F32
  boostCv : F32
  ffCv : F32
deriving DecidableEq, Repr

/-- TransportState: receive buffer, input FIFO, output stream (10_state.md R29, R30), liveness (R32). -/
structure TransportState where
  rx : List Byte
  inQ : List Byte
  outQ : List Byte
  received : Bool
  /-- A time of `TIME_W` bits. -/
  lastFrameTime : Nat
deriving DecidableEq, Repr

/-- Counters of `COUNTER_W` bits each (10_state.md R31). -/
structure Counters where
  overflow : Nat
  resyncDrops : Nat
  badMagic : Nat
  badLength : Nat
  noHandler : Nat
  handlerFalse : Nat
deriving DecidableEq, Repr

/-- checkRange: a pair that fails `pvMin < pvMax`, as it does when either is a NaN, becomes the safe default range
(40_pid.md R101, 70_reset_and_hazards.md R231). -/
def checkRange (c : Config) (pid : PidStatus) : PidStatus :=
  if flt (Val.ofBits c.num pid.pvMin) (Val.ofBits c.num pid.pvMax) then pid
  else { pid with pvMin := c.defaultPvMin, pvMax := c.defaultPvMax }

/-! ### Values at RESET, 70_reset_and_hazards.md R230 -/

/-- PidStatus at RESET, its range checked (R231). -/
def PidStatus.atReset (c : Config) : PidStatus :=
  checkRange c
    { sp := f32Zero, pv := f32Zero, cv := f32Zero, kp := c.initKp, ki := c.initKi, kd := c.initKd,
      pvMin := c.initPvMin, pvMax := c.initPvMax, err := f32Zero, mode := c.modes.pidOff }

/-- Every slot unset: PidPending at RESET, and after a drain (40_pid.md R100). -/
def PidPending.empty : PidPending where
  sp := none
  cv := none
  kp := none
  ki := none
  kd := none
  pvMin := none
  pvMax := none
  mode := none

/-- PidHistory at RESET: zero error history and no prior tick. -/
def PidHistory.atReset : PidHistory where
  err1 := f32Zero
  err2 := f32Zero
  lastTick := 0

/-- ControlState at RESET: outer mode Off, and the configured tuning constants. -/
def ControlState.atReset (c : Config) : ControlState where
  outer := c.modes.outerOff
  inner := c.modes.innerOff
  sp := c.initSp
  deadband := c.deadband
  boostErrThreshold := c.boostErrThreshold
  boostCv := c.boostCv
  ffCv := c.ffCv

/-- TransportState at RESET: empty buffers, no frame received. -/
def TransportState.atReset : TransportState where
  rx := []
  inQ := []
  outQ := []
  received := false
  lastFrameTime := 0

/-- Counters at RESET: all 0. -/
def Counters.zero : Counters where
  overflow := 0
  resyncDrops := 0
  badMagic := 0
  badLength := 0
  noHandler := 0
  handlerFalse := 0

end Sys2Proof.Machine
end

