-- ==== Sys2Proof/Machine/State.lean ====
section
/-! DEFINITION. The whole state of one instance (10_state.md R20), the reasons a step can stop, and the state after reset. -/

namespace Sys2Proof.Machine

/-- The verdict of POLL (30_encoding.md R94). -/
inductive PollResult where
  | noFrame
  | badLength
  | dispatched
deriving DecidableEq, Repr

/-- The verdict's code (30_encoding.md R94). -/
def PollResult.code : PollResult → Nat
  | .noFrame => 0
  | .badLength => 1
  | .dispatched => 2

/-- The result of a host operation (the result column of 30_encoding.md R70). -/
inductive OpResult where
  /-- RESET and RX return nothing; also the value before any operation. -/
  | none
  /-- POLL's verdict. -/
  | poll (r : PollResult)
  /-- TICK's Cv (41_arbiter.md R141). -/
  | tick (cv : F32)
  /-- OK's verdict (42_transport.md R163). -/
  | ok (verdict : Bool)
  /-- READ_COUNTERS' tuple, in the order of 30_encoding.md R93. -/
  | counters (overflow resyncDrops badMagic badLength noHandler handlerFalse : Nat)
  /-- TX_DRAIN's bytes (42_transport.md R165). -/
  | bytes (b : List Byte)
deriving DecidableEq, Repr

/-- The whole state. The first six groups are `st` of 10_state.md R20, and `cfg` is the static configuration that goes with
it (log 1). The last three are the model's own: `live` says RESET has been issued (70_reset_and_hazards.md R232, log 7),
`result` is what the last operation returned (log 8), and `ops` holds the host's operations that have not run yet, the next
one first (log 4). -/
structure State where
  pid : PidStatus
  pend : PidPending
  hist : PidHistory
  ctrl : ControlState
  tr : TransportState
  cnt : Counters
  cfg : Config
  live : Bool
  result : OpResult
  ops : List (List Byte)
deriving DecidableEq, Repr

/-- No reason to fault exists: no error of the block stops, traps, redirects or halts anything (60_exceptions.md R216).
Safe: the machine of the spec never stops this way either (log 11). -/
inductive Fault
deriving DecidableEq, Repr

/-- Why an operation is refused. -/
inductive Refusal where
  /-- Raised by an arm of `exec` whose instruction has no meaning yet. Safe. No arm raises it. -/
  | notModelled (mnemonic : String)
  /-- Raised by every instruction but RESET before RESET has been issued: it "has no meaning (a model refuses it)"
  (70_reset_and_hazards.md R232, 93_implementation_defined.md I22). Safe. -/
  | beforeReset
  /-- Raised by `step` on a record that is no host operation (30_encoding.md R70, 93_implementation_defined.md I22). Safe. -/
  | undecodable (why : DecodeError)
deriving DecidableEq, Repr

/-- The state RESET constructs under a configuration, with nothing waiting (70_reset_and_hazards.md R230). -/
def State.construct (c : Config) : State where
  pid := PidStatus.atReset c
  pend := PidPending.empty
  hist := PidHistory.atReset
  ctrl := ControlState.atReset c
  tr := TransportState.atReset
  cnt := Counters.zero
  cfg := c
  live := true
  result := .none
  ops := []

/-- The machine right after RESET, with the default parameters of 00_scope.md R6. -/
def State.reset : State := State.construct Config.default

end Sys2Proof.Machine
end

