-- ==== Sys2Proof/Machine/Flags.lean ====
section
/-! DEFINITION. The block has no status flags or condition codes (10_state.md R35). What stands in their place: the counters
(10_state.md R31), the result an operation returns, and a handler's reply (43_commands.md R180). -/

namespace Sys2Proof.Machine

/-- The six counters, by name (10_state.md R31). -/
inductive Counter where
  | overflow
  | resyncDrops
  | badMagic
  | badLength
  | noHandler
  | handlerFalse
deriving DecidableEq, Repr

/-- A counter of `w` bits after `k` more events: it wraps modulo 2^w (10_state.md R31). -/
def wrapAdd (w x k : Nat) : Nat := (x + k) % 2 ^ w

/-- `count(c, k)` on the counters: adds k to one of them modulo 2^COUNTER_W (00_scope.md R6, R9). -/
def Counters.add (w : Nat) (c : Counter) (k : Nat) (n : Counters) : Counters :=
  match c with
  | .overflow => { n with overflow := wrapAdd w n.overflow k }
  | .resyncDrops => { n with resyncDrops := wrapAdd w n.resyncDrops k }
  | .badMagic => { n with badMagic := wrapAdd w n.badMagic k }
  | .badLength => { n with badLength := wrapAdd w n.badLength k }
  | .noHandler => { n with noHandler := wrapAdd w n.noHandler k }
  | .handlerFalse => { n with handlerFalse := wrapAdd w n.handlerFalse k }

/-- `count(c, k)` of 00_scope.md R9. -/
def count (c : Counter) (k : Nat) (s : State) : State := { s with cnt := s.cnt.add s.cfg.counterW c k }

/-- What an operation returns. -/
def returning (r : OpResult) (s : State) : State := { s with result := r }

/-- The error classes of 60_exceptions.md R210. -/
inductive ErrorClass where
  | overflow
  | resync
  | badLength
  | noHandler
  | unknownCmd
  | payload
  | statusCap
  | invalidMode
deriving DecidableEq, Repr

/-- A handler's reply, `(n, ok, buf)` of 43_commands.md R180. Since `n = len(buf)` when ok, and `n = 0` when not ok, the
reply is the bytes or the class of the failure. -/
inductive Reply where
  | done (buf : List Byte)
  | failed (why : ErrorClass)
deriving DecidableEq, Repr

/-- `n` of 43_commands.md R180. -/
def Reply.n : Reply → Nat
  | .done buf => buf.length
  | .failed _ => 0

/-- `ok` of 43_commands.md R180. -/
def Reply.ok : Reply → Bool
  | .done _ => true
  | .failed _ => false

end Sys2Proof.Machine
end

