-- ==== Sys2Proof/Machine/Ops.lean ====
section
/-! DEFINITION. The shared operations: writing a group of the state, recording an error, the buffer primitives, responding, and
running an operation on a block that RESET has constructed. -/

namespace Sys2Proof.Machine

/-! ### `st.f <- v`, 00_scope.md R9 -/

/-- Writes PidStatus. -/
def setPid (v : PidStatus) (s : State) : State := { s with pid := v }

/-- Writes the pending slots. -/
def setPend (v : PidPending) (s : State) : State := { s with pend := v }

/-- Writes PidHistory. -/
def setHist (v : PidHistory) (s : State) : State := { s with hist := v }

/-- Writes ControlState. -/
def setCtrl (v : ControlState) (s : State) : State := { s with ctrl := v }

/-- Writes TransportState. -/
def setTr (v : TransportState) (s : State) : State := { s with tr := v }

/-! ### Errors -/

/-- Recording an error, the whole of what "taking an exception" is here: `raise` is `count`, and no error changes control
flow (00_scope.md R9, 60_exceptions.md R216). What each class records is the table of 60_exceptions.md R210; `dropped` is how
many bytes a resync dropped. An invalid mode records nothing. -/
def raise (e : ErrorClass) (dropped : Nat) (s : State) : State :=
  match e with
  | .overflow => count .overflow 1 s
  | .resync => count .badMagic 1 (count .resyncDrops dropped s)
  | .badLength => count .badLength 1 s
  | .noHandler => count .noHandler 1 s
  | .unknownCmd => count .handlerFalse 1 s
  | .payload => count .handlerFalse 1 s
  | .statusCap => count .handlerFalse 1 s
  | .invalidMode => s

/-! ### The primitives of the receive buffer, 20_memory.md R54 -/

/-- `append(b)`. -/
def append (b : Byte) (s : State) : State := setTr { s.tr with rx := s.tr.rx ++ [b] } s

/-- `clear()`. -/
def clear (s : State) : State := setTr { s.tr with rx := [] } s

/-- `dropFront(k)`. -/
def dropFront (k : Nat) (s : State) : State := setTr { s.tr with rx := s.tr.rx.drop k } s

/-- `tr.inQ <- bytes`. -/
def setInQ (bytes : List Byte) (s : State) : State := setTr { s.tr with inQ := bytes } s

/-- `emit(bytes)` of 00_scope.md R9: appends to the output stream. -/
def emit (bytes : List Byte) (s : State) : State := setTr { s.tr with outQ := s.tr.outQ ++ bytes } s

/-! ### Responses -/

/-- The response frame: the request's seq, object, command and flags, and a payload cut to `TX_CAP − HEADER_SIZE`
(42_transport.md R160, R161, 30_encoding.md R90). `req` is the request, whose payload is not echoed. -/
def responseBytes (c : Config) (req : Frame) (out : List Byte) : List Byte :=
  frameBytes c { req with payload := out.take (c.txCap - headerSize) }

/-- `respond(seq, obj, cmd, flags, out)` of 42_transport.md R160. -/
def respond (req : Frame) (out : List Byte) (s : State) : State := emit (responseBytes s.cfg req out) s

/-- What dispatch does with a handler's reply: a failure is counted and answered with an empty payload (42_transport.md
R158). The handler's own effects are already in the state. -/
def finish (req : Frame) (done : State × Reply) : State :=
  match done.2 with
  | .done buf => respond req buf done.1
  | .failed why => respond req [] (raise why 0 done.1)

/-! ### RESET comes first -/

/-- Runs an operation on a constructed block, and refuses it before RESET (70_reset_and_hazards.md R232). -/
def whenLive (run : State → State) (s : State) : Host.Outcome State Fault Refusal :=
  if s.live then .next (run s) else .refused .beforeReset

end Sys2Proof.Machine
end

