-- ==== Sys2Proof/Machine/Pid.lean ====
section
/-! DEFINITION. PidController: applyPending (40_pid.md R100 to R102) and update (R103 to R112). Both run only inside TICK. -/

namespace Sys2Proof.Machine

/-! ### applyPending -/

/-- applyManualCv: a staged Cv is applied, clamped, only if the mode is Manual at this point of the drain; otherwise it
is discarded (40_pid.md R102). -/
def applyManualCv (c : Config) (v : F32) (pid : PidStatus) : PidStatus :=
  if pid.mode = c.modes.pidManual then { pid with cv := clampPercent c.num (Val.ofBits c.num v) } else pid

/-- The staged setpoint and manual Cv, in that order (40_pid.md R100). -/
def applySetpointAndCv (c : Config) (pend : PidPending) (pid : PidStatus) : PidStatus :=
  let pid := { pid with sp := pend.sp.getD pid.sp }
  match pend.cv with
  | some v => applyManualCv c v pid
  | none => pid

/-- The staged gains (40_pid.md R100). -/
def applyGains (pend : PidPending) (pid : PidStatus) : PidStatus :=
  { pid with kp := pend.kp.getD pid.kp, ki := pend.ki.getD pid.ki, kd := pend.kd.getD pid.kd }

/-- The staged limits, and the range check when either was staged (40_pid.md R100, R101). -/
def applyLimits (c : Config) (pend : PidPending) (pid : PidStatus) : PidStatus :=
  let limitsTouched := pend.pvMin.isSome || pend.pvMax.isSome
  let pid := { pid with pvMin := pend.pvMin.getD pid.pvMin, pvMax := pend.pvMax.getD pid.pvMax }
  if limitsTouched then checkRange c pid else pid

/-- The staged mode, a raw byte (40_pid.md R100). -/
def applyMode (pend : PidPending) (pid : PidStatus) : PidStatus := { pid with mode := pend.mode.getD pid.mode }

/-- What draining the slots does to PidStatus, in the order Sp, Cv, Kp, Ki, Kd, PvMin, PvMax, range check, mode
(40_pid.md R100). -/
def drainPending (c : Config) (pend : PidPending) (pid : PidStatus) : PidStatus :=
  applyMode pend (applyLimits c pend (applyGains pend (applySetpointAndCv c pend pid)))

/-- `applyPending()` of 40_pid.md R100: every slot is drained and left empty. -/
def applyPending (s : State) : State := setPend PidPending.empty (setPid (drainPending s.cfg s.pend s.pid) s)

/-! ### The arithmetic of update -/

/-- `scale(x)` of 40_pid.md R109: a process-unit value as a percentage of the range. -/
def scale (n : NumFormat) (pid : PidStatus) (x : F32) : F32 :=
  let lo := Val.ofBits n pid.pvMin
  let hi := Val.ofBits n pid.pvMax
  if fle hi lo then x
  else clampPercent n (fdiv n (fmul n (fsub n (Val.ofBits n x) lo) (Val.ofBits n (f32Hundred n))) (fsub n hi lo))

/-- `e` of 40_pid.md R108: the scaled error. -/
def scaledError (n : NumFormat) (pid : PidStatus) : Val :=
  fsub n (Val.ofBits n (scale n pid pid.sp)) (Val.ofBits n (scale n pid pid.pv))

/-- `dt` of 40_pid.md R107, from the exact difference of the two times, which may be negative. -/
def elapsed (c : Config) (now lastTick : Nat) : Val :=
  fdiv c.num (toF32 c.num ((now : Int) - (lastTick : Int))) (toF32 c.num (c.ticksPerSecond : Int))

/-- `dCv` of 40_pid.md R108, with the grouping of that rule. -/
def deltaCv (n : NumFormat) (pid : PidStatus) (hist : PidHistory) (dt e : Val) : Val :=
  let err1 := Val.ofBits n hist.err1
  let err2 := Val.ofBits n hist.err2
  let p := fmul n (Val.ofBits n pid.kp) (fsub n e err1)
  let i := fmul n (fmul n (Val.ofBits n pid.ki) dt) e
  let dd := fmul n (fdiv n (Val.ofBits n pid.kd) dt)
    (fadd n (fsub n e (fmul n (Val.ofBits n (f32Two n)) err1)) err2)
  fadd n (fadd n p i) dd

/-! ### The arms of update -/

/-- The Off arm: Cv forced to 0, Sp tracks pv, no prior tick; returns +0.0 (40_pid.md R104). -/
def updateOff (pv : F32) (s : State) : State × F32 :=
  (setHist { s.hist with lastTick := 0 } (setPid { s.pid with cv := f32Zero, sp := pv } s), f32Zero)

/-- The Manual arm: Cv kept, Sp tracks pv, no prior tick; returns Cv (40_pid.md R105). -/
def updateManual (pv : F32) (s : State) : State × F32 :=
  (setHist { s.hist with lastTick := 0 } (setPid { s.pid with sp := pv } s), s.pid.cv)

/-- Writing the timestamp alone and returning Cv: the seeding tick (40_pid.md R106), and a tick whose Δt is not positive
(40_pid.md R107). -/
def updateStamp (now : Nat) (s : State) : State × F32 :=
  (setHist { s.hist with lastTick := now } s, s.pid.cv)

/-- The compute step (40_pid.md R108) and the history shift (R110). -/
def updateCompute (dt : Val) (now : Nat) (s : State) : State × F32 :=
  let n := s.cfg.num
  let e := scaledError n s.pid
  let cv := clampPercent n (fadd n (Val.ofBits n s.pid.cv) (deltaCv n s.pid s.hist dt e))
  (setHist { err1 := e.bits, err2 := s.hist.err1, lastTick := now } (setPid { s.pid with cv := cv, err := e.bits } s), cv)

/-- The Auto arm: seeding before the Δt guard before compute (40_pid.md R106 to R108, 60_exceptions.md R218). -/
def updateAuto (now : Nat) (s : State) : State × F32 :=
  if s.hist.lastTick = 0 then updateStamp now s
  else
    let dt := elapsed s.cfg now s.hist.lastTick
    if fle dt (Val.ofBits s.cfg.num f32Zero) then updateStamp now s else updateCompute dt now s

/-- The invalid-mode arm: fall back to Off, then the Off arm; the error is recorded nowhere (40_pid.md R111). -/
def updateInvalid (pv : F32) (s : State) : State × F32 :=
  updateOff pv (raise .invalidMode 0 (setPid { s.pid with mode := s.cfg.modes.pidOff } s))

/-- Recording pv into status, bit pattern verbatim (40_pid.md R103). -/
def recordPv (pv : F32) (s : State) : State := setPid { s.pid with pv := pv } s

/-- The arm of the stored mode (40_pid.md R103). -/
def modeArm (pv : F32) (now : Nat) (s : State) : State × F32 :=
  if s.pid.mode = s.cfg.modes.pidOff then updateOff pv s
  else if s.pid.mode = s.cfg.modes.pidManual then updateManual pv s
  else if s.pid.mode = s.cfg.modes.pidAuto then updateAuto now s
  else updateInvalid pv s

/-- `update(pv, now)` of 40_pid.md R103: records pv, then the arm of the mode. -/
def pidUpdate (pv : F32) (now : Nat) (s : State) : State × F32 := modeArm pv now (recordPv pv s)

end Sys2Proof.Machine
end

