-- ==== Sys2Proof/Machine/Arbiter.lean ====
section
/-! DEFINITION. ControlModeArbiter and the TICK operation (41_arbiter.md R130 to R141). -/

namespace Sys2Proof.Machine

/-- The inner strategies (10_state.md R27). -/
inductive Strategy where
  | off
  | boost
  | feedForward
  | closedLoop
deriving DecidableEq, Repr

/-- The byte `ctrl.inner` holds for a strategy (30_encoding.md R92). -/
def Strategy.code (m : ModeCodes) : Strategy → Byte
  | .off => m.innerOff
  | .boost => m.innerBoost
  | .feedForward => m.innerFeedForward
  | .closedLoop => m.innerClosedLoop

/-- `err` of 41_arbiter.md R133: the arbiter's own setpoint less pv, in raw process units. -/
def arbiterError (n : NumFormat) (ctrl : ControlState) (pv : F32) : Val :=
  fsub n (Val.ofBits n ctrl.sp) (Val.ofBits n pv)

/-- `classify(pv)` of 41_arbiter.md R133: Off before Boost before the deadband test, and FeedForward otherwise. -/
def classify (n : NumFormat) (ctrl : ControlState) (pv : F32) : Strategy :=
  let err := arbiterError n ctrl pv
  if fle err (fneg (Val.ofBits n ctrl.deadband)) then .off
  else if fle (Val.ofBits n ctrl.boostErrThreshold) err then .boost
  else if fle (fabs err) (Val.ofBits n ctrl.deadband) then .closedLoop
  else .feedForward

/-- Off rows of 41_arbiter.md R134: PID Off, and its setpoint tracks pv. -/
def driveOff (inner : Strategy) (pv : F32) (s : State) : State :=
  setPid { s.pid with mode := s.cfg.modes.pidOff, sp := pv } (setCtrl { s.ctrl with inner := inner.code s.cfg.modes } s)

/-- The OperatorManual row of 41_arbiter.md R134: PID Manual, its setpoint tracks pv, and Cv is not written. -/
def driveManual (inner : Strategy) (pv : F32) (s : State) : State :=
  setPid { s.pid with mode := s.cfg.modes.pidManual, sp := pv } (setCtrl { s.ctrl with inner := inner.code s.cfg.modes } s)

/-- The Boost and FeedForward rows of 41_arbiter.md R134: PID Manual with a configured output, clamped. -/
def driveOutput (inner : Strategy) (output pv : F32) (s : State) : State :=
  setPid { s.pid with mode := s.cfg.modes.pidManual, sp := pv, cv := clampPercent s.cfg.num (Val.ofBits s.cfg.num output) }
    (setCtrl { s.ctrl with inner := inner.code s.cfg.modes } s)

/-- Auto rows of 41_arbiter.md R134: PID Auto toward the arbiter's own setpoint. -/
def driveAuto (inner : Strategy) (s : State) : State :=
  setPid { s.pid with mode := s.cfg.modes.pidAuto, sp := s.ctrl.sp } (setCtrl { s.ctrl with inner := inner.code s.cfg.modes } s)

/-- armOff, 41_arbiter.md R135. -/
def armOff (pv : F32) (s : State) : State := driveOff .off pv s

/-- armOperatorManual, 41_arbiter.md R136. -/
def armOperatorManual (pv : F32) (s : State) : State := driveManual .off pv s

/-- armOperatorAuto, 41_arbiter.md R137. -/
def armOperatorAuto (s : State) : State := driveAuto .closedLoop s

/-- armProgrammedAuto, 41_arbiter.md R138. -/
def armProgrammedAuto (pv : F32) (s : State) : State :=
  match classify s.cfg.num s.ctrl pv with
  | .off => driveOff .off pv s
  | .boost => driveOutput .boost s.ctrl.boostCv pv s
  | .feedForward => driveOutput .feedForward s.ctrl.ffCv pv s
  | .closedLoop => driveAuto .closedLoop s

/-- The invalid-outer fallback: a stored outer mode that is no mode's code becomes Off, recorded nowhere (41_arbiter.md
R132). -/
def outerFallback (s : State) : State :=
  if s.ctrl.outer ∈ s.cfg.modes.outer then s
  else raise .invalidMode 0 (setCtrl { s.ctrl with outer := s.cfg.modes.outerOff } s)

/-- The arm of the outer mode (41_arbiter.md R130). After the fallback the last case is ProgrammedAuto. -/
def outerArm (pv : F32) (s : State) : State :=
  if s.ctrl.outer = s.cfg.modes.outerOff then armOff pv s
  else if s.ctrl.outer = s.cfg.modes.outerOperatorManual then armOperatorManual pv s
  else if s.ctrl.outer = s.cfg.modes.outerOperatorAuto then armOperatorAuto s
  else armProgrammedAuto pv s

/-- TICK up to the PID update: pending commands, then the fallback, then the arm (41_arbiter.md R130). -/
def arbitrate (pv : F32) (s : State) : State := outerArm pv (outerFallback (applyPending s))

/-- TICK: arbitrate, then the PID update, whose value is the result (41_arbiter.md R130, R141). -/
def runTick (pv : F32) (now : Nat) (s : State) : State :=
  let updated := pidUpdate pv now (arbitrate pv s)
  returning (.tick updated.2) updated.1

/-- TICK, 41_arbiter.md R130. -/
def execTick (pv : F32) (now : Nat) (s : State) : Host.Outcome State Fault Refusal := whenLive (runTick pv now) s

end Sys2Proof.Machine
end

