-- ==== Sys2Proof/Machine/Reset.lean ====
section
/-! DEFINITION. RESET, the construction of the instance (70_reset_and_hazards.md R230, R231). -/

namespace Sys2Proof.Machine

/-- RESET: every state field takes its value of 70_reset_and_hazards.md R230 under the instance's configuration. The
configuration and the operations still waiting at the host are not state the operation sets (log 17). -/
def runReset (s : State) : State := { State.construct s.cfg with ops := s.ops }

/-- RESET, 70_reset_and_hazards.md R230. It is the one operation that runs before RESET (R232). -/
def execReset (s : State) : Host.Outcome State Fault Refusal := .next (runReset s)

end Sys2Proof.Machine
end

