-- ==== Sys2Proof/Machine/Operands.lean ====
section
/-! DEFINITION. The operand forms of the wire commands: payloads read (43_commands.md R183) and records written (43_commands.md
R198). -/

namespace Sys2Proof.Machine

/-- A set command with one F32: exactly 4 payload bytes, or the failure result with nothing written (43_commands.md R183,
30_encoding.md R82). -/
def withFloat (write : F32 → State → State) (payload : List Byte) (s : State) : State × Reply :=
  match payload with
  | [b0, b1, b2, b3] => (write (f32le b0 b1 b2 b3) s, .done [])
  | _ => (s, .failed .payload)

/-- A set command with one mode byte: exactly 1 payload byte, stored raw, or the failure result with nothing written
(43_commands.md R183, 30_encoding.md R83). -/
def withByte (write : Byte → State → State) (payload : List Byte) (s : State) : State × Reply :=
  match payload with
  | [b] => (write b s, .done [])
  | _ => (s, .failed .payload)

/-- A read command: the record, or failure when the output buffer is smaller; the request payload is ignored
(43_commands.md R184, R193). -/
def withRecord (size : Nat) (record : State → List Byte) (s : State) : State × Reply :=
  if s.cfg.outCap < size then (s, .failed .statusCap) else (s, .done (record s))

/-- `serPid()` of 43_commands.md R198: the PidStatus record, 40 bytes (30_encoding.md R84). -/
def serPid (p : PidStatus) : List Byte :=
  lef32 p.sp ++ lef32 p.pv ++ lef32 p.cv ++ lef32 p.kp ++ lef32 p.ki ++ lef32 p.kd ++ lef32 p.pvMin ++
    lef32 p.pvMax ++ lef32 p.err ++ [p.mode, 0x00#8, 0x00#8, 0x00#8]

/-- `serComposite()` of 43_commands.md R198: the composite record, 48 bytes (30_encoding.md R85). -/
def serComposite (c : ControlState) (p : PidStatus) : List Byte :=
  [c.outer, c.inner, 0x00#8, 0x00#8] ++ lef32 c.sp ++ serPid p

/-- The size of the PidStatus record (30_encoding.md R84). -/
abbrev pidRecordSize : Nat := 40

/-- The size of the composite record (30_encoding.md R85). -/
abbrev compositeRecordSize : Nat := 48

end Sys2Proof.Machine
end

