-- ==== Sys2Proof/Machine/ControllerCommands.lean ====
section
/-! DEFINITION. The controller-level command set (43_commands.md R193 to R196). Set commands write ControlState at once; they are not staged. -/

namespace Sys2Proof.Machine

/-- The READ_COMPOSITE handler: the composite record (43_commands.md R193). -/
def handleReadComposite (_payload : List Byte) (s : State) : State × Reply :=
  withRecord compositeRecordSize (fun t => serComposite t.ctrl t.pid) s

/-- READ_COMPOSITE inside POLL: its handler, then the response. -/
def runReadComposite (tag : Tag) (flags : Byte) (payload : List Byte) (s : State) : State :=
  finish ⟨tag.seq, tag.objectId, s.cfg.cmdIds.readComposite, flags, payload⟩ (handleReadComposite payload s)

/-- READ_COMPOSITE, 43_commands.md R193. -/
def execReadComposite (tag : Tag) (flags : Byte) (payload : List Byte) (s : State) : Host.Outcome State Fault Refusal :=
  whenLive (runReadComposite tag flags payload) s

/-- The SET_OUTER_MODE handler: writes `ctrl.outer`, any byte (43_commands.md R194). -/
def handleSetOuterMode (payload : List Byte) (s : State) : State × Reply :=
  withByte (fun b t => setCtrl { t.ctrl with outer := b } t) payload s

/-- SET_OUTER_MODE inside POLL: its handler, then the response. -/
def runSetOuterMode (tag : Tag) (flags : Byte) (payload : List Byte) (s : State) : State :=
  finish ⟨tag.seq, tag.objectId, s.cfg.cmdIds.setOuterMode, flags, payload⟩ (handleSetOuterMode payload s)

/-- SET_OUTER_MODE, 43_commands.md R194. -/
def execSetOuterMode (tag : Tag) (flags : Byte) (payload : List Byte) (s : State) : Host.Outcome State Fault Refusal :=
  whenLive (runSetOuterMode tag flags payload) s

/-- The SET_CTRL_SP handler: writes `ctrl.sp` (43_commands.md R195). -/
def handleSetCtrlSp (payload : List Byte) (s : State) : State × Reply :=
  withFloat (fun v t => setCtrl { t.ctrl with sp := v } t) payload s

/-- SET_CTRL_SP inside POLL: its handler, then the response. -/
def runSetCtrlSp (tag : Tag) (flags : Byte) (payload : List Byte) (s : State) : State :=
  finish ⟨tag.seq, tag.objectId, s.cfg.cmdIds.setCtrlSp, flags, payload⟩ (handleSetCtrlSp payload s)

/-- SET_CTRL_SP, 43_commands.md R195. -/
def execSetCtrlSp (tag : Tag) (flags : Byte) (payload : List Byte) (s : State) : Host.Outcome State Fault Refusal :=
  whenLive (runSetCtrlSp tag flags payload) s

/-- The SET_INNER_MODE handler: writes `ctrl.inner`, any byte (43_commands.md R196). -/
def handleSetInnerMode (payload : List Byte) (s : State) : State × Reply :=
  withByte (fun b t => setCtrl { t.ctrl with inner := b } t) payload s

/-- SET_INNER_MODE inside POLL: its handler, then the response. -/
def runSetInnerMode (tag : Tag) (flags : Byte) (payload : List Byte) (s : State) : State :=
  finish ⟨tag.seq, tag.objectId, s.cfg.cmdIds.setInnerMode, flags, payload⟩ (handleSetInnerMode payload s)

/-- SET_INNER_MODE, 43_commands.md R196. -/
def execSetInnerMode (tag : Tag) (flags : Byte) (payload : List Byte) (s : State) : Host.Outcome State Fault Refusal :=
  whenLive (runSetInnerMode tag flags payload) s

end Sys2Proof.Machine
end

