-- ==== Sys2Proof/Machine/Fallback.lean ====
section
/-! DEFINITION. The two fallback rows of the opcode table: a frame no handler takes, and a command id its handler does not know. -/

namespace Sys2Proof.Machine

/-- NO_HANDLER inside POLL: no handler runs, the miss is counted, and the response is empty (42_transport.md R158,
60_exceptions.md R215). -/
def runNoHandler (seq objectId cmdId flags : Byte) (payload : List Byte) (s : State) : State :=
  respond ⟨seq, objectId, cmdId, flags, payload⟩ [] (raise .noHandler 0 s)

/-- NO_HANDLER, 42_transport.md R158. -/
def execNoHandler (seq objectId cmdId flags : Byte) (payload : List Byte) (s : State) :
    Host.Outcome State Fault Refusal :=
  whenLive (runNoHandler seq objectId cmdId flags payload) s

/-- The PID handler's answer to an unknown id: failure, nothing written (43_commands.md R182). -/
def handleUnknownCmd (s : State) : State × Reply := (s, .failed .unknownCmd)

/-- UNKNOWN_CMD inside POLL: the failed handler is counted and answered (43_commands.md R182, 42_transport.md R158). -/
def runUnknownCmd (tag : Tag) (cmdId flags : Byte) (payload : List Byte) (s : State) : State :=
  finish ⟨tag.seq, tag.objectId, cmdId, flags, payload⟩ (handleUnknownCmd s)

/-- UNKNOWN_CMD, 43_commands.md R182. -/
def execUnknownCmd (tag : Tag) (cmdId flags : Byte) (payload : List Byte) (s : State) : Host.Outcome State Fault Refusal :=
  whenLive (runUnknownCmd tag cmdId flags payload) s

end Sys2Proof.Machine
end

