-- ==== Sys2Proof/Machine/PidCommands.lean ====
section
/-! DEFINITION. The PID command set (43_commands.md R184 to R192), reached by fall-through from the controller handler, or on an object bound to the PID handler. Set commands stage a value in a pending slot, replacing what it held (R197), and neither read nor write `pid`. -/

namespace Sys2Proof.Machine

/-- The READ_STATUS handler: the PidStatus record of applied values (43_commands.md R184). -/
def handleReadStatus (_payload : List Byte) (s : State) : State × Reply :=
  withRecord pidRecordSize (fun t => serPid t.pid) s

/-- READ_STATUS inside POLL: its handler, then the response. -/
def runReadStatus (tag : Tag) (flags : Byte) (payload : List Byte) (s : State) : State :=
  finish ⟨tag.seq, tag.objectId, s.cfg.cmdIds.readStatus, flags, payload⟩ (handleReadStatus payload s)

/-- READ_STATUS, 43_commands.md R184. -/
def execReadStatus (tag : Tag) (flags : Byte) (payload : List Byte) (s : State) : Host.Outcome State Fault Refusal :=
  whenLive (runReadStatus tag flags payload) s

/-- The SET_SP handler: stages `pend.sp` (43_commands.md R185). -/
def handleSetSp (payload : List Byte) (s : State) : State × Reply :=
  withFloat (fun v t => setPend { t.pend with sp := some v } t) payload s

/-- SET_SP inside POLL: its handler, then the response. -/
def runSetSp (tag : Tag) (flags : Byte) (payload : List Byte) (s : State) : State :=
  finish ⟨tag.seq, tag.objectId, s.cfg.cmdIds.setSp, flags, payload⟩ (handleSetSp payload s)

/-- SET_SP, 43_commands.md R185. -/
def execSetSp (tag : Tag) (flags : Byte) (payload : List Byte) (s : State) : Host.Outcome State Fault Refusal :=
  whenLive (runSetSp tag flags payload) s

/-- The SET_CV handler: stages `pend.cv` (43_commands.md R186). -/
def handleSetCv (payload : List Byte) (s : State) : State × Reply :=
  withFloat (fun v t => setPend { t.pend with cv := some v } t) payload s

/-- SET_CV inside POLL: its handler, then the response. -/
def runSetCv (tag : Tag) (flags : Byte) (payload : List Byte) (s : State) : State :=
  finish ⟨tag.seq, tag.objectId, s.cfg.cmdIds.setCv, flags, payload⟩ (handleSetCv payload s)

/-- SET_CV, 43_commands.md R186. -/
def execSetCv (tag : Tag) (flags : Byte) (payload : List Byte) (s : State) : Host.Outcome State Fault Refusal :=
  whenLive (runSetCv tag flags payload) s

/-- The SET_KP handler: stages `pend.kp` (43_commands.md R187). -/
def handleSetKp (payload : List Byte) (s : State) : State × Reply :=
  withFloat (fun v t => setPend { t.pend with kp := some v } t) payload s

/-- SET_KP inside POLL: its handler, then the response. -/
def runSetKp (tag : Tag) (flags : Byte) (payload : List Byte) (s : State) : State :=
  finish ⟨tag.seq, tag.objectId, s.cfg.cmdIds.setKp, flags, payload⟩ (handleSetKp payload s)

/-- SET_KP, 43_commands.md R187. -/
def execSetKp (tag : Tag) (flags : Byte) (payload : List Byte) (s : State) : Host.Outcome State Fault Refusal :=
  whenLive (runSetKp tag flags payload) s

/-- The SET_KI handler: stages `pend.ki` (43_commands.md R188). -/
def handleSetKi (payload : List Byte) (s : State) : State × Reply :=
  withFloat (fun v t => setPend { t.pend with ki := some v } t) payload s

/-- SET_KI inside POLL: its handler, then the response. -/
def runSetKi (tag : Tag) (flags : Byte) (payload : List Byte) (s : State) : State :=
  finish ⟨tag.seq, tag.objectId, s.cfg.cmdIds.setKi, flags, payload⟩ (handleSetKi payload s)

/-- SET_KI, 43_commands.md R188. -/
def execSetKi (tag : Tag) (flags : Byte) (payload : List Byte) (s : State) : Host.Outcome State Fault Refusal :=
  whenLive (runSetKi tag flags payload) s

/-- The SET_KD handler: stages `pend.kd` (43_commands.md R189). -/
def handleSetKd (payload : List Byte) (s : State) : State × Reply :=
  withFloat (fun v t => setPend { t.pend with kd := some v } t) payload s

/-- SET_KD inside POLL: its handler, then the response. -/
def runSetKd (tag : Tag) (flags : Byte) (payload : List Byte) (s : State) : State :=
  finish ⟨tag.seq, tag.objectId, s.cfg.cmdIds.setKd, flags, payload⟩ (handleSetKd payload s)

/-- SET_KD, 43_commands.md R189. -/
def execSetKd (tag : Tag) (flags : Byte) (payload : List Byte) (s : State) : Host.Outcome State Fault Refusal :=
  whenLive (runSetKd tag flags payload) s

/-- The SET_PVMIN handler: stages `pend.pvMin` (43_commands.md R190). -/
def handleSetPvMin (payload : List Byte) (s : State) : State × Reply :=
  withFloat (fun v t => setPend { t.pend with pvMin := some v } t) payload s

/-- SET_PVMIN inside POLL: its handler, then the response. -/
def runSetPvMin (tag : Tag) (flags : Byte) (payload : List Byte) (s : State) : State :=
  finish ⟨tag.seq, tag.objectId, s.cfg.cmdIds.setPvMin, flags, payload⟩ (handleSetPvMin payload s)

/-- SET_PVMIN, 43_commands.md R190. -/
def execSetPvMin (tag : Tag) (flags : Byte) (payload : List Byte) (s : State) : Host.Outcome State Fault Refusal :=
  whenLive (runSetPvMin tag flags payload) s

/-- The SET_PVMAX handler: stages `pend.pvMax` (43_commands.md R191). -/
def handleSetPvMax (payload : List Byte) (s : State) : State × Reply :=
  withFloat (fun v t => setPend { t.pend with pvMax := some v } t) payload s

/-- SET_PVMAX inside POLL: its handler, then the response. -/
def runSetPvMax (tag : Tag) (flags : Byte) (payload : List Byte) (s : State) : State :=
  finish ⟨tag.seq, tag.objectId, s.cfg.cmdIds.setPvMax, flags, payload⟩ (handleSetPvMax payload s)

/-- SET_PVMAX, 43_commands.md R191. -/
def execSetPvMax (tag : Tag) (flags : Byte) (payload : List Byte) (s : State) : Host.Outcome State Fault Refusal :=
  whenLive (runSetPvMax tag flags payload) s

/-- The SET_MODE handler: stages `pend.mode`, any byte (43_commands.md R192). -/
def handleSetMode (payload : List Byte) (s : State) : State × Reply :=
  withByte (fun b t => setPend { t.pend with mode := some b } t) payload s

/-- SET_MODE inside POLL: its handler, then the response. -/
def runSetMode (tag : Tag) (flags : Byte) (payload : List Byte) (s : State) : State :=
  finish ⟨tag.seq, tag.objectId, s.cfg.cmdIds.setMode, flags, payload⟩ (handleSetMode payload s)

/-- SET_MODE, 43_commands.md R192. -/
def execSetMode (tag : Tag) (flags : Byte) (payload : List Byte) (s : State) : Host.Outcome State Fault Refusal :=
  whenLive (runSetMode tag flags payload) s

end Sys2Proof.Machine
end

