-- ==== Sys2Proof/Machine/Router.lean ====
section
/-! DEFINITION. CommandRouter: a decoded frame to its handler, its counters and its one response (42_transport.md R158). -/

namespace Sys2Proof.Machine

/-- Runs the instruction a frame selects. `select` gives no host operation, so those arms are never taken. -/
def runWire (i : Instr) (s : State) : State :=
  match i with
  | .reset => s
  | .rx _ => s
  | .poll _ => s
  | .tick _ _ => s
  | .ok _ => s
  | .readCounters => s
  | .txDrain => s
  | .readStatus tag g p => runReadStatus tag g p s
  | .setSp tag g p => runSetSp tag g p s
  | .setCv tag g p => runSetCv tag g p s
  | .setKp tag g p => runSetKp tag g p s
  | .setKi tag g p => runSetKi tag g p s
  | .setKd tag g p => runSetKd tag g p s
  | .setPvMin tag g p => runSetPvMin tag g p s
  | .setPvMax tag g p => runSetPvMax tag g p s
  | .setMode tag g p => runSetMode tag g p s
  | .readComposite tag g p => runReadComposite tag g p s
  | .setOuterMode tag g p => runSetOuterMode tag g p s
  | .setCtrlSp tag g p => runSetCtrlSp tag g p s
  | .setInnerMode tag g p => runSetInnerMode tag g p s
  | .noHandler q obj cmd g p => runNoHandler q obj cmd g p s
  | .unknownCmd tag cmd g p => runUnknownCmd tag cmd g p s

/-- `dispatch(f)` of 42_transport.md R158. -/
def dispatchFrame (f : Frame) (s : State) : State := runWire (select s.cfg f) s

end Sys2Proof.Machine
end

