-- ==== Sys2Proof/Machine/Transport.lean ====
section
/-! DEFINITION. FrameTransport: POLL (42_transport.md R150 to R162) and the other host operations of the transport (R163 to
R166). -/

namespace Sys2Proof.Machine

/-! ### POLL -/

/-- One byte of the drain: a byte that finds the buffer full discards the buffer, counts an overflow, and is kept
(42_transport.md R151). -/
def drainByte (s : State) (b : Byte) : State :=
  append b (if s.tr.rx.length = s.cfg.rxCap then raise .overflow 0 (clear s) else s)

/-- Step 1, drain: every input byte, oldest first (42_transport.md R151). -/
def drain (s : State) : State := setInQ [] (s.tr.inQ.foldl drainByte s)

/-- The least index at which the magic bytes stand whole (42_transport.md R152). -/
def findMagic (magic : List Byte) : List Byte → Option Nat
  | [] => none
  | b :: rest => if magic.isPrefixOf (b :: rest) then some 0 else (findMagic magic rest).map (· + 1)

/-- Dropping bytes the scan skipped: nothing is recorded when there are none (42_transport.md R152, R153). -/
def resyncDrop (k : Nat) (s : State) : State := if 0 < k then raise .resync k (dropFront k s) else s

/-- Step 2, scan: aligns the buffer on the first magic, or drops all but the last 3 bytes; says whether a magic was
found (42_transport.md R152, R153). -/
def scan (s : State) : State × Bool :=
  match findMagic (le32 s.cfg.magic) s.tr.rx with
  | some i => (resyncDrop i s, true)
  | none => (resyncDrop (s.tr.rx.length - 3) s, false)

/-- Step 5, extraction: exactly the frame's bytes are removed, and the frame counts for liveness (42_transport.md R157). -/
def extract (now : Nat) (length : Nat) (s : State) : State :=
  let s := dropFront length s
  setTr { s.tr with received := true, lastFrameTime := now } s

/-- Steps 3 to 5, on a buffer that begins with the magic (42_transport.md R154 to R158). -/
def pollAligned (now : Nat) (s : State) : State :=
  if s.tr.rx.length < headerSize then returning (.poll .noFrame) s
  else
    let length := declaredLength s.tr.rx
    if length < headerSize ∨ s.cfg.rxCap < length then
      returning (.poll .badLength) (raise .badLength 0 (dropFront 1 s))
    else if s.tr.rx.length < length then returning (.poll .noFrame) s
    else
      let frame := frameOfBytes (s.tr.rx.take length)
      returning (.poll .dispatched) (dispatchFrame frame (extract now length s))

/-- POLL: the five steps in order, stopping at the first that returns (42_transport.md R150). -/
def runPoll (now : Nat) (s : State) : State :=
  let scanned := scan (drain s)
  if scanned.2 then pollAligned now scanned.1 else returning (.poll .noFrame) scanned.1

/-- POLL, 42_transport.md R150. -/
def execPoll (now : Nat) (s : State) : Host.Outcome State Fault Refusal := whenLive (runPoll now) s

/-! ### RX, OK, READ_COUNTERS, TX_DRAIN -/

/-- RX: the bytes join the input FIFO and nothing else changes (42_transport.md R166). -/
def runRx (bytes : List Byte) (s : State) : State := returning .none (setInQ (s.tr.inQ ++ bytes) s)

/-- RX, 42_transport.md R166. -/
def execRx (bytes : List Byte) (s : State) : Host.Outcome State Fault Refusal := whenLive (runRx bytes) s

/-- The liveness verdict of 42_transport.md R163: a frame was received, and `0 ≤ now − lastFrameTime ≤ LIVENESS_WINDOW`
over the exact integers. -/
def livenessOk (c : Config) (tr : TransportState) (now : Nat) : Bool :=
  let age : Int := (now : Int) - (tr.lastFrameTime : Int)
  tr.received && decide (0 ≤ age) && decide (age ≤ (c.livenessWindow : Int))

/-- OK: reports and changes nothing (42_transport.md R163). -/
def runOk (now : Nat) (s : State) : State := returning (.ok (livenessOk s.cfg s.tr now)) s

/-- OK, 42_transport.md R163. -/
def execOk (now : Nat) (s : State) : Host.Outcome State Fault Refusal := whenLive (runOk now) s

/-- The tuple of READ_COUNTERS, in the order of 30_encoding.md R93. -/
def counterTuple (n : Counters) : OpResult :=
  .counters n.overflow n.resyncDrops n.badMagic n.badLength n.noHandler n.handlerFalse

/-- READ_COUNTERS: reports and changes nothing (42_transport.md R164). -/
def runReadCounters (s : State) : State := returning (counterTuple s.cnt) s

/-- READ_COUNTERS, 42_transport.md R164. -/
def execReadCounters (s : State) : Host.Outcome State Fault Refusal := whenLive runReadCounters s

/-- TX_DRAIN: returns the output stream and empties it (42_transport.md R165). -/
def runTxDrain (s : State) : State := returning (.bytes s.tr.outQ) (setTr { s.tr with outQ := [] } s)

/-- TX_DRAIN, 42_transport.md R165. -/
def execTxDrain (s : State) : Host.Outcome State Fault Refusal := whenLive runTxDrain s

end Sys2Proof.Machine
end

