-- ==== Sys2Proof/Machine/Dispatch.lean ====
section
/-! DEFINITION. The meaning of each instruction: one arm per constructor. -/

namespace Sys2Proof.Machine

def exec (i : Instr) (s : State) : Host.Outcome State Fault Refusal :=
  match i with
  -- host operations, 30_encoding.md R70
  | .reset => Sys2Proof.Machine.execReset s
  | .rx bytes => Sys2Proof.Machine.execRx bytes s
  | .poll now => Sys2Proof.Machine.execPoll now s
  | .tick pv now => Sys2Proof.Machine.execTick pv now s
  | .ok now => Sys2Proof.Machine.execOk now s
  | .readCounters => Sys2Proof.Machine.execReadCounters s
  | .txDrain => Sys2Proof.Machine.execTxDrain s
  -- the PID command set, 30_encoding.md R87
  | .readStatus tag flags payload => Sys2Proof.Machine.execReadStatus tag flags payload s
  | .setSp tag flags payload => Sys2Proof.Machine.execSetSp tag flags payload s
  | .setCv tag flags payload => Sys2Proof.Machine.execSetCv tag flags payload s
  | .setKp tag flags payload => Sys2Proof.Machine.execSetKp tag flags payload s
  | .setKi tag flags payload => Sys2Proof.Machine.execSetKi tag flags payload s
  | .setKd tag flags payload => Sys2Proof.Machine.execSetKd tag flags payload s
  | .setPvMin tag flags payload => Sys2Proof.Machine.execSetPvMin tag flags payload s
  | .setPvMax tag flags payload => Sys2Proof.Machine.execSetPvMax tag flags payload s
  | .setMode tag flags payload => Sys2Proof.Machine.execSetMode tag flags payload s
  -- the controller-level command set, 30_encoding.md R88
  | .readComposite tag flags payload => Sys2Proof.Machine.execReadComposite tag flags payload s
  | .setOuterMode tag flags payload => Sys2Proof.Machine.execSetOuterMode tag flags payload s
  | .setCtrlSp tag flags payload => Sys2Proof.Machine.execSetCtrlSp tag flags payload s
  | .setInnerMode tag flags payload => Sys2Proof.Machine.execSetInnerMode tag flags payload s
  -- the fallback rows, 30_encoding.md R89
  | .noHandler seq objectId cmdId flags payload => Sys2Proof.Machine.execNoHandler seq objectId cmdId flags payload s
  | .unknownCmd tag cmdId flags payload => Sys2Proof.Machine.execUnknownCmd tag cmdId flags payload s

end Sys2Proof.Machine
end

