-- ==== Sys2Proof/Machine/Fetch.lean ====
section
/-! DEFINITION. Taking the host's next operation (the program of 10_state.md R34), and placing an opcode-table word as that
operation. -/

namespace Sys2Proof.Machine

/-- The next operation's record and the state without it, or `none` when the host has invoked nothing. The operations form
one total order (20_memory.md R58). -/
def fetch (s : State) : Option (List Byte × State) :=
  match s.ops with
  | [] => none
  | record :: rest => some (record, { s with ops := rest })

/-- Waiting for the next host operation changes nothing (70_reset_and_hazards.md R230, log 6). -/
def idle (s : State) : State := s

/-- Puts a record before the operations that wait. -/
def invoke (record : List Byte) (s : State) : State := { s with ops := record :: s.ops }

/-- Makes a frame the next one POLL extracts: the buffer empty and the frame at the head of the input, so that its bytes
are all the POLL sees (log 9). -/
def presentFrame (frame : List Byte) (s : State) : State := setTr { s.tr with rx := [], inQ := frame } s

/-- Places an opcode-table word as the next instruction (log 9). An 8-bit word is a host operation and is invoked. A
16-bit word is a frame's key: the frame is presented and a POLL is invoked, and that POLL runs the command. No other
width is in the table, and an empty record stands for it, which `step` refuses. -/
def placeTableWord (s : State) (nbits w : Nat) : State :=
  if nbits = 8 then invoke (tableRecord s.cfg w) s
  else if nbits = 16 then
    invoke (encode s.cfg (.poll 0)) (presentFrame (tableFrame s.cfg w) s)
  else invoke [] s

end Sys2Proof.Machine
end

