-- ==== Sys2Proof/Machine/Step.lean ====
section
/-! DEFINITION. One step: the next host operation, decoded and run. -/

namespace Sys2Proof.Machine

/-- One step of the block: it takes the host's next operation and runs it as one atomic transition (20_memory.md R57); a
record that is no operation is refused (30_encoding.md R70); with none waiting the block waits. -/
def step (s : State) : Host.Outcome State Fault Refusal :=
  match fetch s with
  | none => .next (idle s)
  | some (record, s') =>
    match decodeOp s.cfg record with
    | .instr i => exec i s'
    | .rejected why => .refused (.undecodable why)

/-- The state whose next step runs the instruction of an opcode-table word (log 9). -/
def State.withFetchWord (s : State) (nbits w : Nat) : State := placeTableWord s nbits w

end Sys2Proof.Machine
end

