-- ==== Sys2Proof/Safety.lean ====
section
/-! DEFINITION. The terms claims are made in: the ranges, the invariant of a constructed block, a host that keeps to the
interface, and repeated delivery of bytes. -/

namespace Sys2Proof.Machine

/-- A number in [0.0, 100.0]; a −0.0 counts as in range and a NaN does not (10_state.md R22). -/
def inPercentRange (n : NumFormat) (b : F32) : Bool :=
  fle (Val.ofBits n f32Zero) (Val.ofBits n b) && fle (Val.ofBits n b) (Val.ofBits n (f32Hundred n))

/-- A valid scaling range, so neither end is a NaN (10_state.md R23). -/
def validRange (n : NumFormat) (lo hi : F32) : Bool := flt (Val.ofBits n lo) (Val.ofBits n hi)

/-- A configuration that is well-formed (00_scope.md R6) and whose safe default range is itself valid, without which
10_state.md R23 cannot hold (log 20). -/
def Config.sound (c : Config) : Bool := c.wf && validRange c.num c.defaultPvMin c.defaultPvMax

/-- The invariant of a block RESET has constructed. -/
structure State.Inv (s : State) : Prop where
  /-- The configuration is sound. -/
  config : Config.sound s.cfg = true
  /-- The receive buffer is within its capacity (20_memory.md R53). -/
  rxBounded : s.tr.rx.length ≤ s.cfg.rxCap
  /-- Cv is a number in [0.0, 100.0] (10_state.md R22). -/
  cvInRange : inPercentRange s.cfg.num s.pid.cv = true
  /-- PvMin is below PvMax (10_state.md R23). -/
  rangeValid : validRange s.cfg.num s.pid.pvMin s.pid.pvMax = true
  /-- The stored PID mode is Off, Manual or Auto (10_state.md R24). -/
  modeLegal : s.pid.mode ∈ s.cfg.modes.pid
  /-- Outside Auto there is no prior tick, so an entry into Auto seeds (40_pid.md R104, R105). -/
  freshOutsideAuto : s.pid.mode ≠ s.cfg.modes.pidAuto → s.hist.lastTick = 0
  /-- Off forces Cv to 0 (40_pid.md R104). -/
  offIsZero : s.pid.mode = s.cfg.modes.pidOff → s.pid.cv = f32Zero
  /-- The tuning constants are the configured ones (10_state.md R28). -/
  tuning : s.ctrl.deadband = s.cfg.deadband ∧ s.ctrl.boostErrThreshold = s.cfg.boostErrThreshold ∧
    s.ctrl.boostCv = s.cfg.boostCv ∧ s.ctrl.ffCv = s.cfg.ffCv
  /-- Until a frame is extracted the frame time is 0 (10_state.md R32). -/
  neverReceived : s.tr.received = false → s.tr.lastFrameTime = 0
  /-- The two times have `TIME_W` bits (00_scope.md R6). -/
  timesFit : s.hist.lastTick < 2 ^ s.cfg.timeW ∧ s.tr.lastFrameTime < 2 ^ s.cfg.timeW
  /-- The counters have `COUNTER_W` bits (10_state.md R31). -/
  countersFit : s.cnt.overflow < 2 ^ s.cfg.counterW ∧ s.cnt.resyncDrops < 2 ^ s.cfg.counterW ∧
    s.cnt.badMagic < 2 ^ s.cfg.counterW ∧ s.cnt.badLength < 2 ^ s.cfg.counterW ∧
    s.cnt.noHandler < 2 ^ s.cfg.counterW ∧ s.cnt.handlerFalse < 2 ^ s.cfg.counterW

/-- A host that keeps to the interface: RESET has been issued, and what waits are operations (30_encoding.md R70,
70_reset_and_hazards.md R232). -/
def State.Ready (s : State) : Prop :=
  s.live = true ∧ ∀ record ∈ s.ops, ∃ i, decodeOp s.cfg record = .instr i

/-- The verdict of the last operation, if it was a POLL. -/
def pollVerdict (s : State) : Option PollResult :=
  match s.result with
  | .poll r => some r
  | .none => none
  | .tick _ => none
  | .ok _ => none
  | .counters _ _ _ _ _ _ => none
  | .bytes _ => none

/-- Delivers bytes in pieces, each an RX and then a POLL (30_encoding.md R96), and collects the verdicts. It is run on a
constructed block. -/
def deliver : List (List Byte × Nat) → State → List (Option PollResult) × State
  | [], s => ([], s)
  | (bytes, now) :: rest, s =>
    let polled := runPoll now (runRx bytes s)
    let later := deliver rest polled
    (pollVerdict polled :: later.1, later.2)

/-- The magic bytes stand at an index of a byte list (42_transport.md R152). -/
def magicAt (c : Config) (b : List Byte) (i : Nat) : Prop := le32 c.magic <+: b.drop i

end Sys2Proof.Machine
end

