-- ==== Sys2Proof/Certificates/Slice0/Obligations.lean ====
section
/-! DEFINITION. The statements for the provers. -/

namespace Sys2Proof.Claim

open Sys2Proof.Machine

/-- A state with one response frame appended to the output stream: the envelope of 30_encoding.md R90 around a payload. -/
def answered (s : State) (seq obj cmd flags : Byte) (out : List Byte) : State :=
  { s with tr := { s.tr with
      outQ := s.tr.outQ ++ (le32 s.cfg.magic ++ le16 (10 + out.length) ++ [seq, obj, cmd, flags] ++ out) } }

/-- A counter after `k` more events: it wraps modulo 2^COUNTER_W (10_state.md R31), and no event leaves it as it is. -/
def counted (s : State) (x k : Nat) : Nat := if k = 0 then x else (x + k) % 2 ^ s.cfg.counterW

/-- A state after a failed command: the failure counted, and an empty-payload response. -/
def failed (s : State) (seq obj cmd flags : Byte) : State :=
  answered { s with cnt := { s.cnt with handlerFalse := counted s s.cnt.handlerFalse 1 } } seq obj cmd flags []

/-- The PidStatus record, byte by byte (30_encoding.md R84). -/
def statusRecord (p : PidStatus) : List Byte :=
  le32 p.sp ++ le32 p.pv ++ le32 p.cv ++ le32 p.kp ++ le32 p.ki ++ le32 p.kd ++ le32 p.pvMin ++ le32 p.pvMax ++
    le32 p.err ++ [p.mode, 0x00#8, 0x00#8, 0x00#8]

/-- The composite record, byte by byte (30_encoding.md R85). -/
def compositeRecord (s : State) : List Byte :=
  [s.ctrl.outer, s.ctrl.inner, 0x00#8, 0x00#8] ++ le32 s.ctrl.sp ++ statusRecord s.pid

/-- `clampF(x, 0.0, 100.0)` (00_scope.md R11). -/
def percent (n : NumFormat) (x : Val) : F32 := clampF n x 0x00000000#32 (f32Hundred n)

/-- What applyPending leaves, written out (40_pid.md R100 to R102): each slot's value where it holds one, a manual Cv only if
the mode is Manual, clamped; where a limit was staged and the pair fails PvMin < PvMax, both are the safe defaults; every
slot is empty. The order of the drain, the point of the check and the clamp are the spec's own choices
(92_eei_decisions.md D10, D11, D12). -/
def applied (s : State) : State :=
  let lo := s.pend.pvMin.getD s.pid.pvMin
  let hi := s.pend.pvMax.getD s.pid.pvMax
  let reset := (s.pend.pvMin ≠ none ∨ s.pend.pvMax ≠ none) ∧ validRange s.cfg.num lo hi = false
  { s with
    pid := { s.pid with
      sp := s.pend.sp.getD s.pid.sp
      cv := match s.pend.cv with
        | some v => if s.pid.mode = s.cfg.modes.pidManual then percent s.cfg.num (Val.ofBits s.cfg.num v) else s.pid.cv
        | none => s.pid.cv
      kp := s.pend.kp.getD s.pid.kp
      ki := s.pend.ki.getD s.pid.ki
      kd := s.pend.kd.getD s.pid.kd
      pvMin := if reset then s.cfg.defaultPvMin else lo
      pvMax := if reset then s.cfg.defaultPvMax else hi
      mode := s.pend.mode.getD s.pid.mode }
    pend := { sp := none, cv := none, kp := none, ki := none, kd := none, pvMin := none, pvMax := none, mode := none } }

/-- `scale(x)` written out (40_pid.md R109): the percentage of the range, and `x` itself where PvMax ≤ PvMin. -/
def scaled (n : NumFormat) (lo hi x : F32) : F32 :=
  if fle (Val.ofBits n hi) (Val.ofBits n lo) = true then x
  else percent n (fdiv n (fmul n (fsub n (Val.ofBits n x) (Val.ofBits n lo)) (Val.ofBits n (f32Hundred n)))
    (fsub n (Val.ofBits n hi) (Val.ofBits n lo)))

/-- `dt` written out (40_pid.md R107): `toF32(d) ÷ toF32(TICKS_PER_SECOND)`, with `d` the exact difference of the times. -/
def deltaT (c : Config) (now last : Nat) : Val :=
  fdiv c.num (toF32 c.num ((now : Int) - (last : Int))) (toF32 c.num (c.ticksPerSecond : Int))

/-- A pattern that is a finite number. -/
def finite (n : NumFormat) (b : F32) : Prop := magnitude b < infMagnitude n

/-- The infinity of a sign. -/
def inf (n : NumFormat) (neg : Bool) : F32 := withSign neg (infMagnitude n)

/-- The sign of a value. -/
def sgn (neg : Bool) : ℚ := if neg then -1 else 1

/-- The rational value of a finite pattern (IEEE 754, log 21). -/
def value (n : NumFormat) (b : F32) : ℚ := sgn (signBit b) * (significand n b : ℚ) * (2 : ℚ) ^ (lastBit n b)

/-- Whether an exact result of a size rounds to an infinity (IEEE 754, log 21). To nearest, from halfway past the largest
finite number on; in a direction away from zero, past the largest finite number; in a direction toward zero, never. -/
def overflows (n : NumFormat) (neg : Bool) (size : ℚ) : Prop :=
  let top : ℤ := 2 ^ (n.expBits - 1)
  let largest : ℚ := (2 : ℚ) ^ top - (2 : ℚ) ^ (top - 1 - n.fracBits)
  match n.rounding with
  | .nearestEven => (2 : ℚ) ^ top - (2 : ℚ) ^ (top - 2 - n.fracBits) ≤ size
  | .towardZero => False
  | .towardPositive => neg = false ∧ largest < size
  | .towardNegative => neg = true ∧ largest < size

/-- `r` is the exact value `x` rounded once in the format: it has the sign, it is no NaN, it is the infinity exactly when `x`
overflows, and otherwise no number of the format lies between it and `x`, and of the neighbours it is the one the direction
picks, to nearest the one with an even last bit where two are equally near. -/
def Rounded (n : NumFormat) (x : ℚ) (neg : Bool) (r : F32) : Prop :=
  signBit r = neg ∧ magnitude r ≤ infMagnitude n ∧
  (magnitude r = infMagnitude n ↔ overflows n neg |x|) ∧
  (finite n r →
    (∀ c, finite n c →
      ¬ (value n r < value n c ∧ value n c ≤ x) ∧ ¬ (x ≤ value n c ∧ value n c < value n r)) ∧
    match n.rounding with
    | .nearestEven => ∀ c, finite n c → |value n r - x| ≤ |value n c - x| ∧
        (value n c ≠ value n r → |value n r - x| = |value n c - x| → r.toNat % 2 = 0)
    | .towardZero => |value n r| ≤ |x|
    | .towardPositive => x ≤ value n r
    | .towardNegative => value n r ≤ x)

end Sys2Proof.Claim

open Sys2Proof Sys2Proof.Machine Sys2Proof.Claim

/-! ### Encoding -/

/-- 30_encoding.md R70, R75, R86 to R90. Decoding what the encoder writes for a well-formed instruction gives it back, under
every well-formed configuration, each operand at every value. -/
def Obligations.DecodeEncodeAgree : Prop :=
  ∀ (c : Config) (i : Instr), c.wf = true → i.wf c = true → decode c i.space (encode c i) = .instr i

/-- 30_encoding.md R77, R91. Bytes are a frame exactly when they begin with the magic, their declared length is within
HEADER_SIZE and RX_CAP, and they are as many as it declares; there is no other check, so no checksum. -/
def Obligations.FrameDecodesExactlyWhenWellFormed : Prop :=
  ∀ (c : Config) (b : List Byte),
    (∃ i, decodeFrame c b = .instr i) ↔
      (b.take 4 = le32 c.magic ∧ 10 ≤ (b.getD 4 0#8).toNat + 256 * (b.getD 5 0#8).toNat ∧
        (b.getD 4 0#8).toNat + 256 * (b.getD 5 0#8).toNat ≤ c.rxCap ∧
        b.length = (b.getD 4 0#8).toNat + 256 * (b.getD 5 0#8).toNat)

/-- 30_encoding.md R86 to R89 and the opcode table's conditions. The key objectId:cmdId of a frame selects its row. An
object id at or above the table's size, or of an unbound slot, is NO_HANDLER. On an object with a handler the nine PID
ids are their commands; on one bound to the controller handler the four controller ids are theirs too; any other id is
UNKNOWN_CMD. By default object 0 is bound to the controller handler and the ids are the table's, both the spec's own
choice (92_eei_decisions.md D25, D26). That the two handlers of the spec are all there is to bind is the model's
reading (log 14). -/
def Obligations.KeySelectsItsRow : Prop :=
  (∀ (c : Config) (q obj cmd g : Byte) (p : List Byte),
    c.handlerTableSize ≤ obj.toNat ∨ c.handlers[obj.toNat]? = some none →
    select c ⟨q, obj, cmd, g, p⟩ = .noHandler q obj cmd g p) ∧
  (∀ (c : Config) (q obj cmd g : Byte) (p : List Byte) (h : Handler), c.wf = true →
    c.handlers[obj.toNat]? = some (some h) →
    select c ⟨q, obj, c.cmdIds.readStatus, g, p⟩ = .readStatus ⟨q, obj⟩ g p ∧
    select c ⟨q, obj, c.cmdIds.setSp, g, p⟩ = .setSp ⟨q, obj⟩ g p ∧
    select c ⟨q, obj, c.cmdIds.setCv, g, p⟩ = .setCv ⟨q, obj⟩ g p ∧
    select c ⟨q, obj, c.cmdIds.setKp, g, p⟩ = .setKp ⟨q, obj⟩ g p ∧
    select c ⟨q, obj, c.cmdIds.setKi, g, p⟩ = .setKi ⟨q, obj⟩ g p ∧
    select c ⟨q, obj, c.cmdIds.setKd, g, p⟩ = .setKd ⟨q, obj⟩ g p ∧
    select c ⟨q, obj, c.cmdIds.setPvMin, g, p⟩ = .setPvMin ⟨q, obj⟩ g p ∧
    select c ⟨q, obj, c.cmdIds.setPvMax, g, p⟩ = .setPvMax ⟨q, obj⟩ g p ∧
    select c ⟨q, obj, c.cmdIds.setMode, g, p⟩ = .setMode ⟨q, obj⟩ g p ∧
    (h = .controller →
      select c ⟨q, obj, c.cmdIds.readComposite, g, p⟩ = .readComposite ⟨q, obj⟩ g p ∧
      select c ⟨q, obj, c.cmdIds.setOuterMode, g, p⟩ = .setOuterMode ⟨q, obj⟩ g p ∧
      select c ⟨q, obj, c.cmdIds.setCtrlSp, g, p⟩ = .setCtrlSp ⟨q, obj⟩ g p ∧
      select c ⟨q, obj, c.cmdIds.setInnerMode, g, p⟩ = .setInnerMode ⟨q, obj⟩ g p ∧
      (cmd ∉ c.cmdIds.pid → cmd ∉ c.cmdIds.controller →
        select c ⟨q, obj, cmd, g, p⟩ = .unknownCmd ⟨q, obj⟩ cmd g p)) ∧
    (h = .pid → cmd ∉ c.cmdIds.pid → select c ⟨q, obj, cmd, g, p⟩ = .unknownCmd ⟨q, obj⟩ cmd g p)) ∧
  Config.default.handlers = [some .controller, none, none, none] ∧
  Config.default.cmdIds =
    { readStatus := 0x00#8, setSp := 0x01#8, setCv := 0x02#8, setKp := 0x03#8, setKi := 0x04#8, setKd := 0x05#8,
      setPvMin := 0x06#8, setPvMax := 0x07#8, setMode := 0x08#8, readComposite := 0x10#8, setOuterMode := 0x11#8,
      setCtrlSp := 0x12#8, setInnerMode := 0x13#8 }

/-- 30_encoding.md, the worked encoding and R70. Words written out from the tables decode to their instructions, one of
each family. The layout of a host operation's arguments is the model's choice (log 5). -/
def Obligations.WrittenOutWordsDecode : Prop :=
  decode Config.default .wire
      [0xEF#8, 0xBE#8, 0xAD#8, 0xDE#8, 0x0E#8, 0x00#8, 0x01#8, 0x00#8, 0x03#8, 0x00#8, 0x00#8, 0x00#8, 0xC0#8, 0x3F#8] =
    .instr (.setKp ⟨0x01#8, 0x00#8⟩ 0x00#8 [0x00#8, 0x00#8, 0xC0#8, 0x3F#8]) ∧
  decode Config.default .wire
      [0xEF#8, 0xBE#8, 0xAD#8, 0xDE#8, 0x0B#8, 0x00#8, 0x06#8, 0x00#8, 0x11#8, 0x00#8, 0x02#8] =
    .instr (.setOuterMode ⟨0x06#8, 0x00#8⟩ 0x00#8 [0x02#8]) ∧
  decode Config.default .wire
      [0xEF#8, 0xBE#8, 0xAD#8, 0xDE#8, 0x0A#8, 0x00#8, 0x02#8, 0x02#8, 0x00#8, 0x5A#8] =
    .instr (.noHandler 0x02#8 0x02#8 0x00#8 0x5A#8 []) ∧
  decode Config.default .wire
      [0xEF#8, 0xBE#8, 0xAD#8, 0xDE#8, 0x0A#8, 0x00#8, 0x01#8, 0x00#8, 0x42#8, 0x00#8] =
    .instr (.unknownCmd ⟨0x01#8, 0x00#8⟩ 0x42#8 0x00#8 []) ∧
  decode Config.default .host [0x03#8, 0x00#8, 0x00#8, 0xC8#8, 0x43#8, 0xE8#8, 0x03#8, 0x00#8, 0x00#8] =
    .instr (.tick 0x43C80000#32 1000)

/-- 00_scope.md R10 and 20_memory.md R50: integers and floats are little-endian, the pattern is kept verbatim, and the encoders
undo the decoders. That floats have the byte order of integers and that a pattern is kept verbatim is the spec's own
reading (92_eei_decisions.md D41). -/
def Obligations.CodecsAreLittleEndianInverses : Prop :=
  (∀ b0 b1 b2 b3 : Byte,
    (f32le b0 b1 b2 b3).toNat = b0.toNat + 2 ^ 8 * b1.toNat + 2 ^ 16 * b2.toNat + 2 ^ 24 * b3.toNat ∧
    lef32 (f32le b0 b1 b2 b3) = [b0, b1, b2, b3]) ∧
  (∀ v : U32, ∃ b0 b1 b2 b3 : Byte, le32 v = [b0, b1, b2, b3] ∧ u32le b0 b1 b2 b3 = v) ∧
  (∀ b0 b1 : Byte, le16 (u16le b0 b1) = [b0, b1] ∧ u16le b0 b1 = b0.toNat + 256 * b1.toNat)

/-! ### The step -/

/-- 10_state.md R34, 20_memory.md R58. When the host's next record decodes to an instruction, a step runs that instruction at
the state without the record; a record that is no operation is refused; and with none waiting a step changes nothing. The
queue of records and the waiting step are the model's choices (log 4, log 6). -/
def Obligations.StepRunsTheDecodedOperation : Prop :=
  (∀ (s : State) (record : List Byte) (rest : List (List Byte)) (i : Instr),
    s.ops = record :: rest → decode s.cfg .host record = .instr i → step s = exec i { s with ops := rest }) ∧
  (∀ (s : State) (record : List Byte) (rest : List (List Byte)) (why : DecodeError),
    s.ops = record :: rest → decode s.cfg .host record = .rejected why → step s = .refused (.undecodable why)) ∧
  (∀ s : State, s.ops = [] → step s = .next s)

/-- 30_encoding.md R70: "Any other code is refused by the model (there is no such operation)". -/
def Obligations.UnknownSelectorIsRefused : Prop :=
  ∀ (s : State) (code : Byte) (args : List Byte) (rest : List (List Byte)),
    s.ops = (code :: args) :: rest → 6 < code.toNat → step s = .refused (.undecodable (.unknownOperation code))

/-- 70_reset_and_hazards.md R232: before RESET every operation but RESET is refused, and RESET runs. That a flag of the state
says whether RESET was issued is the model's choice (log 7). -/
def Obligations.BeforeResetOnlyResetRuns : Prop :=
  ∀ (i : Instr) (s : State), s.live = false →
    (i ≠ .reset → exec i s = .refused .beforeReset) ∧ ∃ t, exec .reset s = .next t ∧ t.live = true

/-- 60_exceptions.md R216: no error stops, traps or halts anything. A constructed block whose host only invokes operations
takes a next state at every step, and is then such a block again. -/
def Obligations.ReadyBlockNeverStops : Prop :=
  ∀ s : State, s.Ready → ∃ t, step s = .next t ∧ t.Ready

/-- 10_state.md R33, 20_memory.md R62: the configuration, with the handler table, is static, and a constructed block stays
constructed, whatever step is taken. That the configuration is a field of State which RESET keeps, and the flag that says
RESET was issued, are the model's choices (log 1, log 7, log 17). -/
def Obligations.ConfigurationIsStatic : Prop :=
  ∀ s t : State, step s = .next t → t.cfg = s.cfg ∧ (s.live = true → t.live = true)

/-- 10_state.md R36, the access matrix: which host operation may write which state group. A TICK writes the outer mode only as
the fallback of a stored byte that is no mode. -/
def Obligations.AccessMatrixHolds : Prop :=
  ∀ (i : Instr) (s t : State), i.space = .host → exec i s = .next t →
    (t.pid ≠ s.pid → i = .reset ∨ ∃ pv now, i = .tick pv now) ∧
    (t.pend ≠ s.pend → i = .reset ∨ (∃ now, i = .poll now) ∨ ∃ pv now, i = .tick pv now) ∧
    (t.hist ≠ s.hist → i = .reset ∨ ∃ pv now, i = .tick pv now) ∧
    (t.ctrl.outer ≠ s.ctrl.outer → i = .reset ∨ (∃ now, i = .poll now) ∨
      ((∃ pv now, i = .tick pv now) ∧ s.ctrl.outer ∉ s.cfg.modes.outer ∧ t.ctrl.outer = s.cfg.modes.outerOff)) ∧
    (t.ctrl.inner ≠ s.ctrl.inner → i = .reset ∨ (∃ now, i = .poll now) ∨ ∃ pv now, i = .tick pv now) ∧
    (t.ctrl.sp ≠ s.ctrl.sp → i = .reset ∨ ∃ now, i = .poll now) ∧
    (t.ctrl.deadband ≠ s.ctrl.deadband ∨ t.ctrl.boostErrThreshold ≠ s.ctrl.boostErrThreshold ∨
      t.ctrl.boostCv ≠ s.ctrl.boostCv ∨ t.ctrl.ffCv ≠ s.ctrl.ffCv → i = .reset) ∧
    (t.tr.rx ≠ s.tr.rx → i = .reset ∨ ∃ now, i = .poll now) ∧
    (t.tr.inQ ≠ s.tr.inQ → i = .reset ∨ (∃ b, i = .rx b) ∨ ∃ now, i = .poll now) ∧
    (t.tr.outQ ≠ s.tr.outQ → i = .reset ∨ (∃ now, i = .poll now) ∨ i = .txDrain) ∧
    (t.tr.received ≠ s.tr.received ∨ t.tr.lastFrameTime ≠ s.tr.lastFrameTime → i = .reset ∨ ∃ now, i = .poll now) ∧
    (t.cnt ≠ s.cnt → i = .reset ∨ ∃ now, i = .poll now) ∧
    (∀ b, i = .rx b → t.tr.inQ = s.tr.inQ ++ b) ∧
    ((∃ now, i = .poll now) → t.tr.inQ = [] ∧ s.tr.outQ <+: t.tr.outQ) ∧
    (i = .txDrain → t.tr.outQ = []) ∧
    ((∃ pv now, i = .tick pv now) → t.pend = PidPending.empty)

/-! ### RESET, the invariant and the other host operations -/

/-- 70_reset_and_hazards.md R230, R231: RESET sets every field to its value, on a block in any state. The scaling range is the
configured one if valid and the safe default range otherwise. The values of the fields the source does not give are the
spec's own (92_eei_decisions.md D13), and that the configuration and the waiting operations stay is the model's (log 17). -/
def Obligations.ResetConstructsTheInstance : Prop :=
  ∀ s : State,
    exec .reset s = .next
      { pid :=
          { sp := 0#32, pv := 0#32, cv := 0#32, kp := s.cfg.initKp, ki := s.cfg.initKi, kd := s.cfg.initKd,
            pvMin := if validRange s.cfg.num s.cfg.initPvMin s.cfg.initPvMax then s.cfg.initPvMin else s.cfg.defaultPvMin,
            pvMax := if validRange s.cfg.num s.cfg.initPvMin s.cfg.initPvMax then s.cfg.initPvMax else s.cfg.defaultPvMax,
            err := 0#32, mode := s.cfg.modes.pidOff }
        pend := { sp := none, cv := none, kp := none, ki := none, kd := none, pvMin := none, pvMax := none, mode := none }
        hist := { err1 := 0#32, err2 := 0#32, lastTick := 0 }
        ctrl :=
          { outer := s.cfg.modes.outerOff, inner := s.cfg.modes.innerOff, sp := s.cfg.initSp, deadband := s.cfg.deadband,
            boostErrThreshold := s.cfg.boostErrThreshold, boostCv := s.cfg.boostCv, ffCv := s.cfg.ffCv }
        tr := { rx := [], inQ := [], outQ := [], received := false, lastFrameTime := 0 }
        cnt :=
          { overflow := 0, resyncDrops := 0, badMagic := 0, badLength := 0, noHandler := 0, handlerFalse := 0 }
        cfg := s.cfg
        live := true
        result := .none
        ops := s.ops }

/-- The invariant holds of the block RESET constructs under every sound configuration, and of the reset state. -/
def Obligations.ResetMeetsTheInvariant : Prop :=
  (∀ c : Config, Config.sound c = true → (State.construct c).Inv) ∧ State.reset.Inv

/-- 00_scope.md R6, 10_state.md R22, R23, R24, R28, R31, R32, 20_memory.md R53, 40_pid.md R104, R105: every step keeps
the invariant. Cv is a number in [0.0, 100.0], the range is valid, the stored PID mode is legal, there is no prior
tick outside Auto, Off has Cv 0, the tuning constants are the configured ones, the receive buffer is within its
capacity, and the times and the counters are within TIME_W and COUNTER_W bits. -/
def Obligations.StepKeepsTheInvariant : Prop :=
  ∀ s t : State, s.Inv → step s = .next t → t.Inv

/-- 42_transport.md R166: RX appends to the input FIFO and nothing else changes. -/
def Obligations.RxOnlyAppends : Prop :=
  ∀ (s : State) (b : List Byte), s.live = true →
    exec (.rx b) s = .next { s with tr := { s.tr with inQ := s.tr.inQ ++ b }, result := .none }

/-- 42_transport.md R163: OK answers whether a frame was received and its age is within the window, and changes nothing. A
`now` before the frame's time, as after a wrap, is not ok (70_reset_and_hazards.md R243). -/
def Obligations.OkReportsLiveness : Prop :=
  ∀ (s : State) (now : Nat), s.live = true →
    exec (.ok now) s = .next { s with
      result := .ok (s.tr.received && decide (s.tr.lastFrameTime ≤ now) &&
        decide (now - s.tr.lastFrameTime ≤ s.cfg.livenessWindow)) }

/-- 42_transport.md R164: READ_COUNTERS answers the six counters in order and changes nothing. -/
def Obligations.ReadCountersReportsAllSix : Prop :=
  ∀ s : State, s.live = true →
    exec .readCounters s = .next { s with
      result := .counters s.cnt.overflow s.cnt.resyncDrops s.cnt.badMagic s.cnt.badLength s.cnt.noHandler
        s.cnt.handlerFalse }

/-- 42_transport.md R165: TX_DRAIN returns the output stream and empties it, and nothing else changes. -/
def Obligations.TxDrainReturnsAndEmpties : Prop :=
  ∀ s : State, s.live = true →
    exec .txDrain s = .next { s with tr := { s.tr with outQ := [] }, result := .bytes s.tr.outQ }

/-! ### Wire commands -/

/-- 43_commands.md R188 to R191, and the length check and staging of the other three: SET_SP, SET_CV, SET_KP, SET_KI, SET_KD,
SET_PVMIN and SET_PVMAX with exactly 4 payload bytes stage the decoded float in their slot and answer an empty response;
with any other length they write nothing, are counted, and answer an empty response. Nothing else changes. The default ids
of the last four are those of their rules. -/
def Obligations.PidFloatCommandsStage : Prop :=
  (∀ (s : State) (q obj g : Byte), s.live = true →
    (∀ b0 b1 b2 b3 : Byte,
      exec (.setSp ⟨q, obj⟩ g [b0, b1, b2, b3]) s =
        .next (answered { s with pend := { s.pend with sp := some (f32le b0 b1 b2 b3) } } q obj s.cfg.cmdIds.setSp g []) ∧
      exec (.setCv ⟨q, obj⟩ g [b0, b1, b2, b3]) s =
        .next (answered { s with pend := { s.pend with cv := some (f32le b0 b1 b2 b3) } } q obj s.cfg.cmdIds.setCv g []) ∧
      exec (.setKp ⟨q, obj⟩ g [b0, b1, b2, b3]) s =
        .next (answered { s with pend := { s.pend with kp := some (f32le b0 b1 b2 b3) } } q obj s.cfg.cmdIds.setKp g []) ∧
      exec (.setKi ⟨q, obj⟩ g [b0, b1, b2, b3]) s =
        .next (answered { s with pend := { s.pend with ki := some (f32le b0 b1 b2 b3) } } q obj s.cfg.cmdIds.setKi g []) ∧
      exec (.setKd ⟨q, obj⟩ g [b0, b1, b2, b3]) s =
        .next (answered { s with pend := { s.pend with kd := some (f32le b0 b1 b2 b3) } } q obj s.cfg.cmdIds.setKd g []) ∧
      exec (.setPvMin ⟨q, obj⟩ g [b0, b1, b2, b3]) s =
        .next (answered { s with pend := { s.pend with pvMin := some (f32le b0 b1 b2 b3) } } q obj s.cfg.cmdIds.setPvMin g []) ∧
      exec (.setPvMax ⟨q, obj⟩ g [b0, b1, b2, b3]) s =
        .next (answered { s with pend := { s.pend with pvMax := some (f32le b0 b1 b2 b3) } } q obj s.cfg.cmdIds.setPvMax g [])) ∧
    (∀ p : List Byte, p.length ≠ 4 →
      exec (.setSp ⟨q, obj⟩ g p) s = .next (failed s q obj s.cfg.cmdIds.setSp g) ∧
      exec (.setCv ⟨q, obj⟩ g p) s = .next (failed s q obj s.cfg.cmdIds.setCv g) ∧
      exec (.setKp ⟨q, obj⟩ g p) s = .next (failed s q obj s.cfg.cmdIds.setKp g) ∧
      exec (.setKi ⟨q, obj⟩ g p) s = .next (failed s q obj s.cfg.cmdIds.setKi g) ∧
      exec (.setKd ⟨q, obj⟩ g p) s = .next (failed s q obj s.cfg.cmdIds.setKd g) ∧
      exec (.setPvMin ⟨q, obj⟩ g p) s = .next (failed s q obj s.cfg.cmdIds.setPvMin g) ∧
      exec (.setPvMax ⟨q, obj⟩ g p) s = .next (failed s q obj s.cfg.cmdIds.setPvMax g))) ∧
  (Config.default.cmdIds.setKi = 0x04#8 ∧ Config.default.cmdIds.setKd = 0x05#8 ∧
    Config.default.cmdIds.setPvMin = 0x06#8 ∧ Config.default.cmdIds.setPvMax = 0x07#8)

/-- 43_commands.md R183, R192, R194 to R196: SET_MODE stages its byte; SET_OUTER_MODE, SET_INNER_MODE and SET_CTRL_SP write
ControlState at once; any byte is accepted; a payload of another length writes nothing, is counted, and answers an empty
response. Nothing else changes. -/
def Obligations.ModeAndControllerCommandsWrite : Prop :=
  ∀ (s : State) (q obj g : Byte), s.live = true →
    (∀ b : Byte,
      exec (.setMode ⟨q, obj⟩ g [b]) s =
        .next (answered { s with pend := { s.pend with mode := some b } } q obj s.cfg.cmdIds.setMode g []) ∧
      exec (.setOuterMode ⟨q, obj⟩ g [b]) s =
        .next (answered { s with ctrl := { s.ctrl with outer := b } } q obj s.cfg.cmdIds.setOuterMode g []) ∧
      exec (.setInnerMode ⟨q, obj⟩ g [b]) s =
        .next (answered { s with ctrl := { s.ctrl with inner := b } } q obj s.cfg.cmdIds.setInnerMode g [])) ∧
    (∀ b0 b1 b2 b3 : Byte,
      exec (.setCtrlSp ⟨q, obj⟩ g [b0, b1, b2, b3]) s =
        .next (answered { s with ctrl := { s.ctrl with sp := f32le b0 b1 b2 b3 } } q obj s.cfg.cmdIds.setCtrlSp g [])) ∧
    (∀ p : List Byte, p.length ≠ 1 →
      exec (.setMode ⟨q, obj⟩ g p) s = .next (failed s q obj s.cfg.cmdIds.setMode g) ∧
      exec (.setOuterMode ⟨q, obj⟩ g p) s = .next (failed s q obj s.cfg.cmdIds.setOuterMode g) ∧
      exec (.setInnerMode ⟨q, obj⟩ g p) s = .next (failed s q obj s.cfg.cmdIds.setInnerMode g)) ∧
    (∀ p : List Byte, p.length ≠ 4 → exec (.setCtrlSp ⟨q, obj⟩ g p) s = .next (failed s q obj s.cfg.cmdIds.setCtrlSp g))

/-- 43_commands.md R184, R193, R198, 30_encoding.md R84, R85: READ_STATUS and READ_COMPOSITE answer their records, cut to TX_CAP
(42_transport.md R161), whatever payload the request has, and fail when the output buffer is smaller than the record.
Nothing else changes. -/
def Obligations.ReadCommandsAnswerTheRecord : Prop :=
  ∀ (s : State) (q obj g : Byte) (p : List Byte), s.live = true →
    exec (.readStatus ⟨q, obj⟩ g p) s = .next
      (if s.cfg.outCap < 40 then failed s q obj s.cfg.cmdIds.readStatus g
       else answered s q obj s.cfg.cmdIds.readStatus g ((statusRecord s.pid).take (s.cfg.txCap - 10))) ∧
    exec (.readComposite ⟨q, obj⟩ g p) s = .next
      (if s.cfg.outCap < 48 then failed s q obj s.cfg.cmdIds.readComposite g
       else answered s q obj s.cfg.cmdIds.readComposite g ((compositeRecord s).take (s.cfg.txCap - 10)))

/-- 60_exceptions.md R215: no-handler and unknown-command errors change no state but their counter, and the response echoes
the request header with an empty payload. -/
def Obligations.UnroutedFramesOnlyCount : Prop :=
  ∀ (s : State) (q obj cmd g : Byte) (p : List Byte), s.live = true →
    exec (.noHandler q obj cmd g p) s =
      .next (answered { s with cnt := { s.cnt with noHandler := counted s s.cnt.noHandler 1 } } q obj cmd g []) ∧
    exec (.unknownCmd ⟨q, obj⟩ cmd g p) s =
      .next (answered { s with cnt := { s.cnt with handlerFalse := counted s s.cnt.handlerFalse 1 } } q obj cmd g [])

/-- 30_encoding.md R89: a frame to an object id past the handler table or of an unbound slot counts one miss; a frame
to an object with a handler, with an id that handler does not know, or a set command whose payload is not exactly its
width, counts one failure; each answers an empty response, nothing else changes, and nothing traps or halts, whatever
the flags and the sequence byte are. R89 names object 0, which the default table binds to the controller handler
(92_eei_decisions.md D25); that another object may be bound, and to which handlers, is read from 10_state.md R33 (log
14). -/
def Obligations.IllegalSelectionsAnswerEmpty : Prop :=
  ∀ (s : State) (q obj cmd g : Byte) (p : List Byte), s.live = true → s.cfg.wf = true →
    let k := s.cfg.cmdIds
    (s.cfg.handlerTableSize ≤ obj.toNat ∨ s.cfg.handlers[obj.toNat]? = some none →
      exec (select s.cfg ⟨q, obj, cmd, g, p⟩) s =
        .next (answered { s with cnt := { s.cnt with noHandler := counted s s.cnt.noHandler 1 } } q obj cmd g [])) ∧
    (∀ h : Handler, s.cfg.handlers[obj.toNat]? = some (some h) →
      (cmd ∉ k.pid ∧ (h = .pid ∨ cmd ∉ k.controller)) ∨
        (cmd ∈ [k.setSp, k.setCv, k.setKp, k.setKi, k.setKd, k.setPvMin, k.setPvMax, k.setCtrlSp] ∧ p.length ≠ 4) ∨
        (cmd ∈ [k.setMode, k.setOuterMode, k.setInnerMode] ∧ p.length ≠ 1) →
      exec (select s.cfg ⟨q, obj, cmd, g, p⟩) s = .next (failed s q obj cmd g))

/-- 30_encoding.md R80: no frame's flags byte decides anything: the state that answers and the payload are the same for every
flags byte, which is copied into the response. The sequence byte likewise (R81, the spec's own choice, 92_eei_decisions.md
D32). -/
def Obligations.FlagsAndSequenceAreOnlyEchoed : Prop :=
  ∀ (s : State) (obj cmd : Byte) (p : List Byte), s.live = true →
    ∃ (t : State) (out : List Byte), ∀ q g : Byte,
      exec (select s.cfg ⟨q, obj, cmd, g, p⟩) s = .next (answered t q obj cmd g out)

/-- 30_encoding.md R80, R81, R90, 42_transport.md R161: every wire command and fallback answers one frame, whose sequence, object,
command and flags bytes are those of the request's own encoding, and which is no longer than TX_CAP. -/
def Obligations.WireCommandsEchoTheHeader : Prop :=
  ∀ (i : Instr) (s : State), s.live = true → s.cfg.wf = true → i.space = .wire →
    ∃ t out, exec i s = .next t ∧
      t.tr.outQ = s.tr.outQ ++ (le32 s.cfg.magic ++ le16 (10 + out.length) ++
        (((encode s.cfg i).drop 6).take 4) ++ out) ∧
      10 + out.length ≤ s.cfg.txCap

/-- 10_state.md R36: no wire command or fallback writes PidStatus, the history, the tuning constants, the receive buffer, the
input FIFO, the liveness state, or a counter of the framing; failures and misses are the only counters it moves. -/
def Obligations.WireCommandsLeaveTheRest : Prop :=
  ∀ (i : Instr) (s t : State), i.space = .wire → exec i s = .next t →
    t.pid = s.pid ∧ t.hist = s.hist ∧
    t.ctrl = { s.ctrl with outer := t.ctrl.outer, inner := t.ctrl.inner, sp := t.ctrl.sp } ∧
    t.tr = { s.tr with outQ := t.tr.outQ } ∧
    t.cnt = { s.cnt with noHandler := t.cnt.noHandler, handlerFalse := t.cnt.handlerFalse } ∧
    t.cfg = s.cfg ∧ t.live = s.live ∧ t.result = s.result ∧ t.ops = s.ops

/-! ### POLL -/

/-- 42_transport.md R151: with n bytes in the buffer and the input together, the drain leaves the newest
(n − 1) mod RX_CAP + 1 of them in the buffer, in order, counts (n − 1) / RX_CAP overflows, and empties the input. Nothing
else changes. That the byte that overflows is kept is the spec's own choice (92_eei_decisions.md D22). -/
def Obligations.DrainKeepsTheNewestBytes : Prop :=
  ∀ s : State, 1 ≤ s.cfg.rxCap → s.tr.rx.length ≤ s.cfg.rxCap →
    let b := s.tr.rx ++ s.tr.inQ
    (b = [] → drain s = s) ∧
    (b ≠ [] →
      drain s = { s with
        tr := { s.tr with rx := b.drop (b.length - ((b.length - 1) % s.cfg.rxCap + 1)), inQ := [] }
        cnt := { s.cnt with overflow := counted s s.cnt.overflow ((b.length - 1) / s.cfg.rxCap) } })

/-- 42_transport.md R152, R153: a scan drops exactly the bytes before the first magic, or all but the last 3 when there is none,
counts them as resync drops, counts one bad-magic event if there were any, and says whether a magic was found. Nothing
else changes. That nothing but the last 3 is kept, and one event a POLL, are the spec's own choices (92_eei_decisions.md
D23, D24). -/
def Obligations.ScanAlignsOnTheFirstMagic : Prop :=
  ∀ s : State,
    ∃ k, (scan s).1 = { s with
        tr := { s.tr with rx := s.tr.rx.drop k }
        cnt := { s.cnt with
          resyncDrops := counted s s.cnt.resyncDrops k
          badMagic := counted s s.cnt.badMagic (if 0 < k then 1 else 0) } } ∧
      (∀ j < k, ¬ magicAt s.cfg s.tr.rx j ∨ (scan s).2 = false) ∧
      ((scan s).2 = true → magicAt s.cfg s.tr.rx k) ∧
      ((scan s).2 = false → k = s.tr.rx.length - 3 ∧ ∀ j, ¬ magicAt s.cfg s.tr.rx j)

/-- 42_transport.md R154, R156: after a drain and a scan that found the magic, an incomplete header or an incomplete frame gives
NoFrame and consumes nothing: what the scan left is the next state. Where nothing waits in the input and the magic is
already at the front, the whole state but POLL's result is unchanged. A scan that found no magic gives NoFrame too, and
what it left is the next state (R153, R159). -/
def Obligations.IncompleteFrameConsumesNothing : Prop :=
  ∀ (s : State) (now : Nat), s.live = true →
    ((scan (drain s)).2 = true →
      let u := (scan (drain s)).1
      (u.tr.rx.length < 10 ∨
        (10 ≤ declaredLength u.tr.rx ∧ declaredLength u.tr.rx ≤ s.cfg.rxCap ∧ u.tr.rx.length < declaredLength u.tr.rx)) →
      exec (.poll now) s = .next { u with result := .poll .noFrame }) ∧
    (s.tr.inQ = [] → s.tr.rx.take 4 = le32 s.cfg.magic →
      (s.tr.rx.length < 10 ∨
        (10 ≤ declaredLength s.tr.rx ∧ declaredLength s.tr.rx ≤ s.cfg.rxCap ∧ s.tr.rx.length < declaredLength s.tr.rx)) →
      exec (.poll now) s = .next { s with result := .poll .noFrame }) ∧
    ((scan (drain s)).2 = false → exec (.poll now) s = .next { (scan (drain s)).1 with result := .poll .noFrame })

/-- 42_transport.md R155: after a drain and a scan that found the magic, with a full header at the front and a declared length
below HEADER_SIZE or above RX_CAP, POLL drops one byte more, counts one bad length and no resync drop, and answers
BadLength. Nothing else changes, the bytes behind the dropped one included. A declared length from HEADER_SIZE to RX_CAP
is never a bad length. -/
def Obligations.BadLengthDropsOneByte : Prop :=
  ∀ (s : State) (now : Nat), s.live = true → (scan (drain s)).2 = true →
    let u := (scan (drain s)).1
    let len := (u.tr.rx.getD 4 0#8).toNat + 256 * (u.tr.rx.getD 5 0#8).toNat
    10 ≤ u.tr.rx.length →
    (len < 10 ∨ s.cfg.rxCap < len →
      exec (.poll now) s = .next { u with
        tr := { u.tr with rx := u.tr.rx.drop 1 }
        cnt := { u.cnt with badLength := counted s u.cnt.badLength 1 }
        result := .poll .badLength }) ∧
    (10 ≤ len → len ≤ s.cfg.rxCap →
      ∃ t, exec (.poll now) s = .next t ∧ t.result ≠ .poll .badLength ∧ t.cnt.badLength = s.cnt.badLength)

/-- 42_transport.md R152, R157, R158, R162: when what a drain and a scan leave begins with the frame of a well-formed wire
instruction, a POLL removes exactly that frame, marks a frame received now, and runs exactly that instruction, on what
the scan left: the bytes after the frame stay, and so do the counts of an overflow and of a resync in the same POLL.
Where the waiting bytes begin with the frame and fit the buffer, nothing is dropped before it. So at most one frame is
extracted. That the extraction is the liveness event is the spec's own choice (92_eei_decisions.md D31). -/
def Obligations.PollRunsTheDecodedFrame : Prop :=
  ∀ (s : State) (now : Nat) (i : Instr) (rest : List Byte),
    s.live = true → s.cfg.wf = true → i.space = .wire → i.wf s.cfg = true →
    ((scan (drain s)).2 = true → (scan (drain s)).1.tr.rx = encode s.cfg i ++ rest →
      let u := (scan (drain s)).1
      ∃ v, exec i { u with tr := { u.tr with rx := rest, received := true, lastFrameTime := now } } = .next v ∧
        exec (.poll now) s = .next { v with result := .poll .dispatched }) ∧
    (s.tr.rx ++ s.tr.inQ = encode s.cfg i ++ rest → (s.tr.rx ++ s.tr.inQ).length ≤ s.cfg.rxCap →
      ∃ v, exec i { s with tr := { rx := rest, inQ := [], outQ := s.tr.outQ, received := true, lastFrameTime := now } } =
          .next v ∧
        exec (.poll now) s = .next { v with result := .poll .dispatched })

/-- 10_state.md R36, 42_transport.md R150: a POLL always completes; it writes neither PidStatus nor the history, the tuning
constants, the configuration or the waiting operations, it empties the input FIFO, and its result is one of the three
verdicts. -/
def Obligations.PollCompletesWithinItsGroups : Prop :=
  ∀ (s : State) (now : Nat), s.live = true →
    ∃ t, exec (.poll now) s = .next t ∧ t.pid = s.pid ∧ t.hist = s.hist ∧
      t.ctrl = { s.ctrl with outer := t.ctrl.outer, inner := t.ctrl.inner, sp := t.ctrl.sp } ∧
      t.tr.inQ = [] ∧ t.cfg = s.cfg ∧ t.live = true ∧ t.ops = s.ops ∧
      (t.result = .poll .noFrame ∨ t.result = .poll .badLength ∨ t.result = .poll .dispatched)

/-- 42_transport.md R158 to R160: a POLL that dispatches appends exactly one response, whose header is the frame's at the front of
the scanned buffer; a POLL that does not appends nothing, stages nothing, and touches no mode, setpoint or liveness state. -/
def Obligations.OneResponsePerDispatchedFrame : Prop :=
  ∀ (s t : State) (now : Nat), s.cfg.wf = true → exec (.poll now) s = .next t →
    (t.result = .poll .dispatched →
      ∃ out, 10 + out.length ≤ s.cfg.txCap ∧
        t.tr.outQ = s.tr.outQ ++ (le32 s.cfg.magic ++ le16 (10 + out.length) ++
          (((scan (drain s)).1.tr.rx.drop 6).take 4) ++ out) ∧
        t.tr.received = true ∧ t.tr.lastFrameTime = now) ∧
    (t.result ≠ .poll .dispatched →
      t.tr.outQ = s.tr.outQ ∧ t.pend = s.pend ∧ t.ctrl = s.ctrl ∧ t.tr.received = s.tr.received ∧
        t.tr.lastFrameTime = s.tr.lastFrameTime ∧ t.cnt.noHandler = s.cnt.noHandler ∧
        t.cnt.handlerFalse = s.cnt.handlerFalse)

/-- 42_transport.md R167, Resync: junk, one well-formed frame and junk, delivered in pieces with a POLL after each, where the junk
makes no other magic and each piece leaves room for the frame. Exactly one POLL dispatches and the others see no frame, and
what the deliveries did to the pending slots, ControlState, the output stream and the dispatch counters is what dispatching
that frame does. The junk before the frame may not make a magic that begins in it; the frame's own payload may hold one. -/
def Obligations.ResyncExtractsTheFrameOnce : Prop :=
  ∀ (s : State) (f : Frame) (junk1 junk2 : List Byte) (pieces : List (List Byte × Nat)),
    s.cfg.wf = true → s.tr.rx = [] → s.tr.inQ = [] → payloadFits s.cfg f.payload = true →
    (∀ k < junk1.length, ¬ magicAt s.cfg (junk1 ++ frameBytes s.cfg f) k) →
    (∀ k, ¬ magicAt s.cfg junk2 k) →
    (pieces.map Prod.fst).flatten = junk1 ++ frameBytes s.cfg f ++ junk2 →
    (∀ piece ∈ pieces, piece.1.length + (frameBytes s.cfg f).length ≤ s.cfg.rxCap) →
    (deliver pieces s).1.count (some .dispatched) = 1 ∧
    (∀ v ∈ (deliver pieces s).1, v = some .dispatched ∨ v = some .noFrame) ∧
    (deliver pieces s).2.pend = (dispatchFrame f s).pend ∧
    (deliver pieces s).2.ctrl = (dispatchFrame f s).ctrl ∧
    (deliver pieces s).2.tr.outQ = (dispatchFrame f s).tr.outQ ∧
    (deliver pieces s).2.cnt.noHandler = (dispatchFrame f s).cnt.noHandler ∧
    (deliver pieces s).2.cnt.handlerFalse = (dispatchFrame f s).cnt.handlerFalse

/-! ### TICK -/

/-- 10_state.md R36, 41_arbiter.md R130, R141: a TICK always completes; it writes neither the transport state nor the counters,
the arbiter's setpoint, the tuning constants, the configuration or the waiting operations; it empties every pending slot,
records pv, and returns the Cv it leaves. -/
def Obligations.TickCompletesWithinItsGroups : Prop :=
  ∀ (s : State) (pv : F32) (now : Nat), s.live = true →
    ∃ t, exec (.tick pv now) s = .next t ∧ t.tr = s.tr ∧ t.cnt = s.cnt ∧ t.cfg = s.cfg ∧ t.live = true ∧
      t.ops = s.ops ∧ t.ctrl = { s.ctrl with outer := t.ctrl.outer, inner := t.ctrl.inner } ∧
      t.pend = { sp := none, cv := none, kp := none, ki := none, kd := none, pvMin := none, pvMax := none, mode := none } ∧
      t.pid.pv = pv ∧ t.result = .tick t.pid.cv

/-- 40_pid.md R100, R101, 41_arbiter.md R140 ("Gains and limits always survive"): after a TICK in any mode each gain is its staged
value if there was one, and the limits are the staged ones; if a limit was staged and the pair fails PvMin < PvMax, both
are the safe defaults. The order and the point of the check are the spec's own choices (92_eei_decisions.md D10, D11). -/
def Obligations.TickAppliesStagedGainsAndLimits : Prop :=
  ∀ (s : State) (pv : F32) (now : Nat), s.live = true →
    ∃ t, exec (.tick pv now) s = .next t ∧
      t.pid.kp = s.pend.kp.getD s.pid.kp ∧ t.pid.ki = s.pend.ki.getD s.pid.ki ∧ t.pid.kd = s.pend.kd.getD s.pid.kd ∧
      (t.pid.pvMin, t.pid.pvMax) =
        (let lo := s.pend.pvMin.getD s.pid.pvMin
         let hi := s.pend.pvMax.getD s.pid.pvMax
         if (s.pend.pvMin ≠ none ∨ s.pend.pvMax ≠ none) ∧ validRange s.cfg.num lo hi = false then
           (s.cfg.defaultPvMin, s.cfg.defaultPvMax)
         else (lo, hi))

/-- 41_arbiter.md R135: in outer mode Off, `ctrl.inner` and the PID mode are Off and the setpoint is pv, and the PID update forces
Cv to 0.0, which TICK returns. What was staged is applied (40_pid.md R100 to R102), and Err and the error history are kept.
That the timestamp is cleared is the spec's own choice (40_pid.md R104, 92_eei_decisions.md D7). -/
def Obligations.TickOffCutsTheOutput : Prop :=
  ∀ (s : State) (pv : F32) (now : Nat), s.live = true → s.ctrl.outer = s.cfg.modes.outerOff →
    exec (.tick pv now) s = .next { applied s with
      ctrl := { s.ctrl with inner := s.cfg.modes.innerOff }
      pid := { (applied s).pid with mode := s.cfg.modes.pidOff, sp := pv, pv := pv, cv := 0x00000000#32 }
      hist := { s.hist with lastTick := 0 }
      result := .tick 0x00000000#32 }

/-- 41_arbiter.md R132, the spec's own extension (92_eei_decisions.md D17): an outer byte that is no mode ticks as outer Off does,
and is Off afterwards. -/
def Obligations.InvalidOuterModeFallsBackToOff : Prop :=
  ∀ (s : State) (pv : F32) (now : Nat), s.ctrl.outer ∉ s.cfg.modes.outer →
    exec (.tick pv now) s = exec (.tick pv now) { s with ctrl := { s.ctrl with outer := s.cfg.modes.outerOff } }

/-- 41_arbiter.md R136, 40_pid.md R102, R105: in outer mode OperatorManual the PID is Manual, its setpoint tracks pv,
and Cv is the staged manual Cv, clamped to [0.0, 100.0], if the previous mode was Manual too, and otherwise the Cv
already there. TICK returns it. That the timestamp is cleared is the spec's own choice (92_eei_decisions.md D7). That
each code names one mode is a premise of the model's (log 2). -/
def Obligations.TickOperatorManualKeepsCv : Prop :=
  ∀ (s : State) (pv : F32) (now : Nat), s.live = true → s.cfg.codesDistinct = true →
    s.ctrl.outer = s.cfg.modes.outerOperatorManual →
    let cv := match s.pend.cv with
      | some v =>
        if s.pid.mode = s.cfg.modes.pidManual then
          clampF s.cfg.num (Val.ofBits s.cfg.num v) 0x00000000#32 (f32Hundred s.cfg.num)
        else s.pid.cv
      | none => s.pid.cv
    exec (.tick pv now) s = .next { applied s with
      ctrl := { s.ctrl with inner := s.cfg.modes.innerOff }
      pid := { (applied s).pid with mode := s.cfg.modes.pidManual, sp := pv, pv := pv, cv := cv }
      hist := { s.hist with lastTick := 0 }
      result := .tick cv }

/-- 41_arbiter.md R137, 40_pid.md R102, R106, R107: in outer mode OperatorAuto, a TICK with no prior tick, or whose Δt
is not positive, writes the timestamp and returns Cv unchanged but for a manual Cv staged in Manual; the PID is Auto
toward the arbiter's setpoint. Which field a Δt ≤ 0 tick writes is the spec's own choice (92_eei_decisions.md D6, D8).
That each code names one mode is a premise of the model's (log 2). -/
def Obligations.TickAutoSeedsOrHolds : Prop :=
  ∀ (s : State) (pv : F32) (now : Nat), s.live = true → s.cfg.codesDistinct = true →
    s.ctrl.outer = s.cfg.modes.outerOperatorAuto →
    (s.hist.lastTick = 0 ∨
      fle (deltaT s.cfg now s.hist.lastTick) (Val.ofBits s.cfg.num 0x00000000#32) = true) →
    let cv := match s.pend.cv with
      | some v =>
        if s.pid.mode = s.cfg.modes.pidManual then
          clampF s.cfg.num (Val.ofBits s.cfg.num v) 0x00000000#32 (f32Hundred s.cfg.num)
        else s.pid.cv
      | none => s.pid.cv
    exec (.tick pv now) s = .next { applied s with
      ctrl := { s.ctrl with inner := s.cfg.modes.innerClosedLoop }
      pid := { (applied s).pid with mode := s.cfg.modes.pidAuto, sp := s.ctrl.sp, pv := pv, cv := cv }
      hist := { s.hist with lastTick := now }
      result := .tick cv }

/-- 40_pid.md R107 to R109: in outer mode OperatorAuto, with a prior tick and a positive Δt, Cv becomes clamp(Cv +
((Kp·(e − err1) + (Ki·dt)·e) + (Kd/dt)·((e − 2·err1) + err2)), 0, 100), where Cv, the gains and the limits are as
applied, dt is toF32(d)/toF32(TICKS_PER_SECOND), and e is scale(Sp) − scale(Pv), each scale written out; the history
shifts (R110) and TICK returns the new Cv. The grouping of the rounded operations is the spec's own choice
(92_eei_decisions.md D3). That each code names one mode is a premise of the model's (log 2). -/
def Obligations.TickAutoComputesTheVelocityForm : Prop :=
  ∀ (s : State) (pv : F32) (now : Nat), s.live = true → s.cfg.codesDistinct = true →
    s.ctrl.outer = s.cfg.modes.outerOperatorAuto → s.hist.lastTick ≠ 0 →
    fle (deltaT s.cfg now s.hist.lastTick) (Val.ofBits s.cfg.num 0x00000000#32) = false →
    let n := s.cfg.num
    let pid := { (applied s).pid with mode := s.cfg.modes.pidAuto, sp := s.ctrl.sp, pv := pv }
    let dt := deltaT s.cfg now s.hist.lastTick
    let e := fsub n (Val.ofBits n (scaled n pid.pvMin pid.pvMax s.ctrl.sp))
      (Val.ofBits n (scaled n pid.pvMin pid.pvMax pv))
    let err1 := Val.ofBits n s.hist.err1
    let err2 := Val.ofBits n s.hist.err2
    let dCv := fadd n (fadd n (fmul n (Val.ofBits n pid.kp) (fsub n e err1)) (fmul n (fmul n (Val.ofBits n pid.ki) dt) e))
      (fmul n (fdiv n (Val.ofBits n pid.kd) dt)
        (fadd n (fsub n e (fmul n (Val.ofBits n (f32Two n)) err1)) err2))
    let cv := clampF n (fadd n (Val.ofBits n pid.cv) dCv) 0x00000000#32 (f32Hundred n)
    exec (.tick pv now) s = .next { applied s with
      ctrl := { s.ctrl with inner := s.cfg.modes.innerClosedLoop }
      pid := { pid with cv := cv, err := e.bits }
      hist := { err1 := e.bits, err2 := s.hist.err1, lastTick := now }
      result := .tick cv }

/-- 40_pid.md R110: a TICK that computes (the PID is in Auto, with a prior tick and a positive Δt) shifts the error
history: Err and err₁ become the error, err₂ the previous err₁, the timestamp is now, and TICK returns Cv. That each
code names one mode is a premise of the model's (log 2). -/
def Obligations.ComputeShiftsTheHistory : Prop :=
  ∀ (s t : State) (pv : F32) (now : Nat), s.cfg.codesDistinct = true → exec (.tick pv now) s = .next t →
    t.pid.mode = s.cfg.modes.pidAuto → s.hist.lastTick ≠ 0 →
    fle (deltaT s.cfg now s.hist.lastTick) (Val.ofBits s.cfg.num 0x00000000#32) = false →
    t.hist = { err1 := t.pid.err, err2 := s.hist.err1, lastTick := now } ∧
      t.pid.err = (scaledError s.cfg.num t.pid).bits ∧ t.result = .tick t.pid.cv

/-- 41_arbiter.md R135, R137: what outer mode Off and OperatorAuto write before the PID update, and that the update
then forces Cv to 0.0, or runs the Auto arm on what OperatorAuto wrote. The default codes are the numbers of the two
rules. That each code names one mode is a premise of the model's (log 2). -/
def Obligations.OffAndOperatorAutoDriveThePid : Prop :=
  (∀ (s : State) (pv : F32) (now : Nat), s.live = true → s.cfg.codesDistinct = true →
    (s.ctrl.outer = s.cfg.modes.outerOff →
      ∃ t, exec (.tick pv now) s = .next t ∧ t.ctrl.inner = s.cfg.modes.innerOff ∧ t.pid.mode = s.cfg.modes.pidOff ∧
        t.pid.sp = pv ∧ t.pid.cv = 0x00000000#32 ∧ t.result = .tick 0x00000000#32) ∧
    (s.ctrl.outer = s.cfg.modes.outerOperatorAuto →
      let u := { applied s with
        ctrl := { s.ctrl with inner := s.cfg.modes.innerClosedLoop }
        pid := { (applied s).pid with mode := s.cfg.modes.pidAuto, sp := s.ctrl.sp } }
      exec (.tick pv now) s = .next { (pidUpdate pv now u).1 with result := .tick (pidUpdate pv now u).2 } ∧
        pidUpdate pv now u = updateAuto now { u with pid := { u.pid with pv := pv } })) ∧
  (Config.default.modes.outerOff = 0#8 ∧ Config.default.modes.innerOff = 0#8 ∧ Config.default.modes.pidOff = 0#8 ∧
    Config.default.modes.outerOperatorAuto = 2#8 ∧ Config.default.modes.innerClosedLoop = 3#8 ∧
    Config.default.modes.pidAuto = 2#8)

/-- 41_arbiter.md R133, R134, R138: in ProgrammedAuto the strategy is the first of Off, Boost, ClosedLoop that its
test picks, in that order, and FeedForward otherwise; Off cuts the output (40_pid.md R104), Boost and FeedForward
drive their configured output, clamped, and ClosedLoop ticks as OperatorAuto does. The clamp and Sp in the Manual
rows, and that Off, Boost and FeedForward clear the timestamp (40_pid.md R104, R105), are the spec's own choices
(92_eei_decisions.md D7, D18, D19). That each code names one mode is a premise of the model's (log 2). -/
def Obligations.TickProgrammedAutoPicksTheStrategy : Prop :=
  ∀ (s : State) (pv : F32) (now : Nat), s.live = true → s.cfg.codesDistinct = true →
    s.ctrl.outer = s.cfg.modes.outerProgrammedAuto →
    let n := s.cfg.num
    let m := s.cfg.modes
    let err := fsub n (Val.ofBits n s.ctrl.sp) (Val.ofBits n pv)
    let tooHot := fle err (fneg (Val.ofBits n s.ctrl.deadband))
    let tooCold := fle (Val.ofBits n s.ctrl.boostErrThreshold) err
    let near := fle (fabs err) (Val.ofBits n s.ctrl.deadband)
    let drive (inner mode : Byte) (cv : F32) : State := { applied s with
      ctrl := { s.ctrl with inner := inner }
      pid := { (applied s).pid with mode := mode, sp := pv, pv := pv, cv := cv }
      hist := { s.hist with lastTick := 0 }
      result := .tick cv }
    (tooHot = true → exec (.tick pv now) s = .next (drive m.innerOff m.pidOff 0x00000000#32)) ∧
    (tooHot = false → tooCold = true →
      exec (.tick pv now) s =
        .next (drive m.innerBoost m.pidManual
          (clampF n (Val.ofBits n s.ctrl.boostCv) 0x00000000#32 (f32Hundred n)))) ∧
    (tooHot = false → tooCold = false → near = true →
      ∃ t, exec (.tick pv now) { s with ctrl := { s.ctrl with outer := m.outerOperatorAuto } } = .next t ∧
        exec (.tick pv now) s = .next { t with ctrl := { t.ctrl with outer := m.outerProgrammedAuto } }) ∧
    (tooHot = false → tooCold = false → near = false →
      exec (.tick pv now) s =
        .next (drive m.innerFeedForward m.pidManual
          (clampF n (Val.ofBits n s.ctrl.ffCv) 0x00000000#32 (f32Hundred n))))

/-- 41_arbiter.md R142: ClosedLoop is chosen exactly when −deadband < err < boostErrThreshold and |err| ≤ deadband. The premise
that the threshold is no NaN is needed: R133 fails every comparison with a NaN, and R142 speaks of numbers (log 19). -/
def Obligations.ClosedLoopExactlyInsideBothExtremes : Prop :=
  ∀ (n : NumFormat) (ctrl : ControlState) (pv : F32), isNaN n ctrl.boostErrThreshold = false →
    (classify n ctrl pv = .closedLoop ↔
      flt (fneg (Val.ofBits n ctrl.deadband)) (arbiterError n ctrl pv) = true ∧
        flt (arbiterError n ctrl pv) (Val.ofBits n ctrl.boostErrThreshold) = true ∧
        fle (fabs (arbiterError n ctrl pv)) (Val.ofBits n ctrl.deadband) = true)

/-- 70_reset_and_hazards.md R244, 41_arbiter.md R133, R134: a NaN pv in ProgrammedAuto drives the feed-forward output,
with the PID Manual. That the output is clamped is the spec's own choice (92_eei_decisions.md D18, D19). That each
code names one mode is a premise of the model's (log 2). -/
def Obligations.NanReadingSelectsFeedForward : Prop :=
  ∀ (s : State) (pv : F32) (now : Nat), s.live = true → s.cfg.codesDistinct = true →
    s.ctrl.outer = s.cfg.modes.outerProgrammedAuto → isNaN s.cfg.num pv = true →
    ∃ t, exec (.tick pv now) s = .next t ∧ t.ctrl.inner = s.cfg.modes.innerFeedForward ∧
      t.pid.mode = s.cfg.modes.pidManual ∧
      t.pid.cv = clampF s.cfg.num (Val.ofBits s.cfg.num s.ctrl.ffCv) 0x00000000#32 (f32Hundred s.cfg.num) ∧
      t.result = .tick t.pid.cv

/-- 41_arbiter.md R139: whatever is staged and whatever the outer byte, the PID update reads a mode that is Off, Manual or Auto,
so its invalid-mode arm is unreachable; and the outer mode after a TICK is one of the four. -/
def Obligations.PidUpdateNeverSeesAnInvalidMode : Prop :=
  ∀ (s : State) (pv : F32),
    (arbitrate pv s).pid.mode ∈ s.cfg.modes.pid ∧ (arbitrate pv s).ctrl.outer ∈ s.cfg.modes.outer

/-- 40_pid.md R111, R104: the invalid-mode arm itself, as the spec gives it for the sub-operation: mode Off, Cv 0, Sp and Pv are
pv, no prior tick, and it returns 0.0. That it behaves as Off in the same update and clears the timestamp is the spec's own
choice (92_eei_decisions.md D7, D9). -/
def Obligations.InvalidModeForcesOff : Prop :=
  ∀ (s : State) (pv : F32) (now : Nat), s.pid.mode ∉ s.cfg.modes.pid →
    pidUpdate pv now s =
      ({ s with
        pid := { s.pid with mode := s.cfg.modes.pidOff, cv := 0x00000000#32, sp := pv, pv := pv }
        hist := { s.hist with lastTick := 0 } }, 0x00000000#32)

/-- 41_arbiter.md R140: a staged PID mode and a staged PID setpoint have no effect whatever on a TICK's next state. -/
def Obligations.StagedModeAndSetpointHaveNoEffect : Prop :=
  ∀ (s : State) (pv : F32) (now : Nat) (m : Option Byte) (v : Option F32),
    exec (.tick pv now) { s with pend := { s.pend with mode := m, sp := v } } = exec (.tick pv now) s

/-- 41_arbiter.md R131: the inner strategy left by SET_INNER_MODE or by an earlier TICK has no effect on a TICK's next state. -/
def Obligations.InnerStrategyHasNoEffectOnTick : Prop :=
  ∀ (s : State) (pv : F32) (now : Nat) (b : Byte),
    exec (.tick pv now) { s with ctrl := { s.ctrl with inner := b } } = exec (.tick pv now) s

/-- 10_state.md R31: no rule reads a counter to decide anything. Two states that differ in their counters alone have, after any
instruction but READ_COUNTERS, next states that differ in their counters alone. -/
def Obligations.CountersSteerNothing : Prop :=
  ∀ (i : Instr) (s t : State) (n : Counters), i ≠ .readCounters → exec i s = .next t →
    ∃ n', exec i { s with cnt := n } = .next { t with cnt := n' }

/-- 70_reset_and_hazards.md R238, 40_pid.md R102, R106: in a state that meets the invariant, a TICK in OperatorAuto whose previous
PID mode was not Auto only seeds: it returns the Cv there was, or the manual Cv staged in Manual, clamped; it keeps the
errors, and the timestamp is now. -/
def Obligations.EntryIntoAutoOnlySeeds : Prop :=
  ∀ (s : State) (pv : F32) (now : Nat), s.Inv → s.live = true → s.ctrl.outer = s.cfg.modes.outerOperatorAuto →
    s.pid.mode ≠ s.cfg.modes.pidAuto →
    ∃ t, exec (.tick pv now) s = .next t ∧ t.pid.mode = s.cfg.modes.pidAuto ∧ t.pid.cv = (applied s).pid.cv ∧
      t.result = .tick t.pid.cv ∧ t.hist = { s.hist with lastTick := now } ∧ t.pid.err = s.pid.err

/-- 40_pid.md R109: scale(x) is clamp(((x − PvMin)·100)/(PvMax − PvMin), 0, 100), and x itself where PvMax ≤ PvMin; under a valid
range it is a number in [0.0, 100.0] for every pattern, and 0.0 for a NaN, and the scaled error is a number, never a NaN,
from −100.0 to 100.0. -/
def Obligations.ScaleIsAPercentage : Prop :=
  ∀ (n : NumFormat) (pid : PidStatus) (x : F32), n.wf = true →
    scale n pid x =
      (if fle (Val.ofBits n pid.pvMax) (Val.ofBits n pid.pvMin) = true then x
       else clampF n
        (fdiv n (fmul n (fsub n (Val.ofBits n x) (Val.ofBits n pid.pvMin)) (Val.ofBits n (f32Hundred n)))
          (fsub n (Val.ofBits n pid.pvMax) (Val.ofBits n pid.pvMin)))
        0x00000000#32 (f32Hundred n)) ∧
    (validRange n pid.pvMin pid.pvMax = true →
      inPercentRange n (scale n pid x) = true ∧ (isNaN n x = true → scale n pid x = 0x00000000#32) ∧
        ∃ e, scaledError n pid = .num e ∧ isNaN n e = false ∧
          fle (fneg (Val.ofBits n (f32Hundred n))) (.num e) = true ∧ fle (.num e) (Val.ofBits n (f32Hundred n)) = true)

/-- 40_pid.md R107, 70_reset_and_hazards.md R243: dt is toF32(d) ÷ toF32(TICKS_PER_SECOND) with d the exact difference of the times;
and where the times and the time base fit 32 bits and the exponent field is binary32's or wider, the Δt guard holds Cv
exactly when time did not advance ("d ≥ 1 always gives dt > 0"). The time base and its width are the spec's own choices
(92_eei_decisions.md D5). -/
def Obligations.ElapsedIsPositiveExactlyWhenTimeAdvanced : Prop :=
  ∀ (c : Config) (now last : Nat),
    elapsed c now last =
      fdiv c.num (toF32 c.num ((now : Int) - (last : Int))) (toF32 c.num (c.ticksPerSecond : Int)) ∧
    (c.num.wf = true → c.num.fracBits ≤ 23 → now < 2 ^ 32 → last < 2 ^ 32 →
      1 ≤ c.ticksPerSecond → c.ticksPerSecond < 2 ^ 32 →
      (fle (elapsed c now last) (Val.ofBits c.num 0x00000000#32) = true ↔ now ≤ last))

/-! ### Numbers -/

/-- 00_scope.md R11: clampF gives lo for a NaN and for a number below lo, hi for a number above hi, and otherwise its argument's
pattern. The NaN case is the spec's own choice (92_eei_decisions.md D4). -/
def Obligations.ClampFollowsItsRule : Prop :=
  ∀ (n : NumFormat) (x lo hi : F32),
    (isNaN n x = true → clampF n (Val.ofBits n x) lo hi = lo) ∧
    (flt (Val.ofBits n x) (Val.ofBits n lo) = true → clampF n (Val.ofBits n x) lo hi = lo) ∧
    (flt (Val.ofBits n x) (Val.ofBits n lo) = false → flt (Val.ofBits n hi) (Val.ofBits n x) = true →
      clampF n (Val.ofBits n x) lo hi = hi) ∧
    (isNaN n x = false → flt (Val.ofBits n x) (Val.ofBits n lo) = false →
      flt (Val.ofBits n hi) (Val.ofBits n x) = false → clampF n (Val.ofBits n x) lo hi = x)

/-- 00_scope.md R6, R8, IEEE 754 (log 2, log 21): rounding gives the correctly rounded number in every format and
direction, and an integer is rounded so; the literals 2.0 and 100.0 are exact. The default format is binary32, rounded
to nearest with ties to even, where 1.0 is 3F800000, 100.0 is 42C80000, and 00000001 is the least number. The default
format and direction are the spec's own choice (92_eei_decisions.md D3). -/
def Obligations.RoundingIsCorrect : Prop :=
  (∀ n : NumFormat, n.wf = true →
    (∀ (neg : Bool) (m : Nat) (e : Int),
      Rounded n (sgn neg * (m : ℚ) * (2 : ℚ) ^ e) neg (roundPack n neg m e)) ∧
    (∀ k : Int, ∃ r, toF32 n k = .num r ∧ Rounded n (k : ℚ) (decide (k < 0)) r) ∧
    finite n (f32Two n) ∧ value n (f32Two n) = 2 ∧ finite n (f32Hundred n) ∧ value n (f32Hundred n) = 100) ∧
  Config.default.num = { fracBits := 23, rounding := .nearestEven } ∧
  value .binary32 0x3F800000#32 = 1 ∧ value .binary32 0x42C80000#32 = 100 ∧
    value .binary32 0x00000001#32 = (2 : ℚ) ^ (-149 : ℤ)

/-- 00_scope.md R8: the sum, difference and product of finite numbers are the exact value, rounded once. An exact zero
has the sign IEEE 754 gives it (log 2, log 21): a sum's is the operands' where they agree, and otherwise + unless
rounding is toward −∞. -/
def Obligations.SumsAndProductsRoundTheExactValue : Prop :=
  ∀ (n : NumFormat) (a b : F32), n.wf = true → finite n a → finite n b →
    let zeroSign (x y : Bool) : Bool := if x = y then x else decide (n.rounding = .towardNegative)
    (∃ r, fadd n (.num a) (.num b) = .num r ∧
      Rounded n (value n a + value n b)
        (if value n a + value n b = 0 then zeroSign (signBit a) (signBit b) else decide (value n a + value n b < 0)) r) ∧
    (∃ r, fsub n (.num a) (.num b) = .num r ∧
      Rounded n (value n a - value n b)
        (if value n a - value n b = 0 then zeroSign (signBit a) (!signBit b) else decide (value n a - value n b < 0)) r) ∧
    (∃ r, fmul n (.num a) (.num b) = .num r ∧ Rounded n (value n a * value n b) (signBit a != signBit b) r)

/-- 00_scope.md R8: the quotient of finite numbers, the divisor not zero, is the exact quotient rounded once, so it is
infinite exactly when that overflows, and its sign is that of the operands' (log 2, log 21). -/
def Obligations.QuotientRoundsTheExactValue : Prop :=
  ∀ (n : NumFormat) (a b : F32), n.wf = true → finite n a → finite n b → value n b ≠ 0 →
    ∃ r, fdiv n (.num a) (.num b) = .num r ∧ Rounded n (value n a / value n b) (signBit a != signBit b) r

/-- 00_scope.md R8, IEEE 754 (log 2, log 21): a NaN operand gives a NaN, and so do infinity less infinity, zero times
infinity, zero by zero and infinity by infinity; an infinity otherwise gives an infinity, a finite number by an
infinity a zero, and a number by zero an infinity, each with its sign. Which NaN it is stays free (log 3). -/
def Obligations.SpecialOperandsFollowIeee : Prop :=
  ∀ (n : NumFormat), n.wf = true →
    let isNan (v : Val) : Prop := ∃ r, v = .nan r ∧ isNaN n r = true
    (∀ (x y : Val) (u : F32), x = .nan u ∨ y = .nan u →
      isNan (fadd n x y) ∧ isNan (fsub n x y) ∧ isNan (fmul n x y) ∧ isNan (fdiv n x y)) ∧
    (∀ s t : Bool,
      (s = t → fadd n (.num (inf n s)) (.num (inf n t)) = .num (inf n s)) ∧
      (s ≠ t → isNan (fadd n (.num (inf n s)) (.num (inf n t)))) ∧
      (s ≠ t → fsub n (.num (inf n s)) (.num (inf n t)) = .num (inf n s)) ∧
      (s = t → isNan (fsub n (.num (inf n s)) (.num (inf n t)))) ∧
      fmul n (.num (inf n s)) (.num (inf n t)) = .num (inf n (s != t)) ∧
      isNan (fdiv n (.num (inf n s)) (.num (inf n t)))) ∧
    (∀ (s : Bool) (a : F32), finite n a →
      fadd n (.num (inf n s)) (.num a) = .num (inf n s) ∧ fadd n (.num a) (.num (inf n s)) = .num (inf n s) ∧
      fsub n (.num (inf n s)) (.num a) = .num (inf n s) ∧ fsub n (.num a) (.num (inf n s)) = .num (inf n (!s)) ∧
      (value n a = 0 → isNan (fmul n (.num (inf n s)) (.num a)) ∧ isNan (fmul n (.num a) (.num (inf n s)))) ∧
      (value n a ≠ 0 → fmul n (.num (inf n s)) (.num a) = .num (inf n (s != signBit a)) ∧
        fmul n (.num a) (.num (inf n s)) = .num (inf n (s != signBit a))) ∧
      fdiv n (.num (inf n s)) (.num a) = .num (inf n (s != signBit a)) ∧
      fdiv n (.num a) (.num (inf n s)) = .num (withSign (s != signBit a) 0)) ∧
    (∀ a b : F32, finite n a → value n b = 0 → finite n b →
      (value n a = 0 → isNan (fdiv n (.num a) (.num b))) ∧
      (value n a ≠ 0 → fdiv n (.num a) (.num b) = .num (inf n (signBit a != signBit b))))

/-- 00_scope.md R8, IEEE 754 (log 2, log 21): comparisons of finite numbers are those of their values, an infinity is
above or below all of them, every comparison with a NaN is false; `−x` and `|x|` are those of the value, and touch the
sign bit alone, of a NaN too (log 22). -/
def Obligations.ComparisonsFollowTheOrder : Prop :=
  ∀ (n : NumFormat), n.wf = true →
    (∀ a b : F32, finite n a → finite n b →
      (flt (.num a) (.num b) = true ↔ value n a < value n b) ∧ (fle (.num a) (.num b) = true ↔ value n a ≤ value n b) ∧
        (feq (.num a) (.num b) = true ↔ value n a = value n b)) ∧
    (∀ a : F32, finite n a →
      flt (.num a) (.num (inf n false)) = true ∧ flt (.num (inf n true)) (.num a) = true ∧
        fle (.num (inf n false)) (.num a) = false ∧ fle (.num a) (.num (inf n true)) = false) ∧
    (∀ s t : Bool,
      (fle (.num (inf n s)) (.num (inf n t)) = true ↔ (s = true ∨ t = false)) ∧
        (flt (.num (inf n s)) (.num (inf n t)) = true ↔ (s = true ∧ t = false)) ∧
        (feq (.num (inf n s)) (.num (inf n t)) = true ↔ s = t)) ∧
    (∀ (u : F32) (v : Val),
      flt (.nan u) v = false ∧ flt v (.nan u) = false ∧ fle (.nan u) v = false ∧ fle v (.nan u) = false ∧
        feq (.nan u) v = false ∧ feq v (.nan u) = false) ∧
    (∀ b : F32, Val.ofBits n b = if isNaN n b = true then .nan b else .num b) ∧
    (∀ b : F32,
      (∃ r, fneg (.num b) = .num r ∧ signBit r = !signBit b ∧ magnitude r = magnitude b ∧ value n r = -value n b) ∧
        (∃ r, fabs (.num b) = .num r ∧ signBit r = false ∧ magnitude r = magnitude b ∧ value n r = |value n b|) ∧
        (∃ r, fneg (.nan b) = .nan r ∧ signBit r = !signBit b ∧ magnitude r = magnitude b) ∧
        (∃ r, fabs (.nan b) = .nan r ∧ signBit r = false ∧ magnitude r = magnitude b))
end

