-- ==== Sys2Proof/Laws/Codec.lean ====
section
/-! SUPPORT. The codecs of 00_scope.md R10 undo one another, the header fields of a frame's bytes are the frame's, and
what the handler table answers. -/

namespace Sys2Proof

@[simp] theorem le16_length (v : Nat) : (le16 v).length = 2 := rfl
@[simp] theorem le32_length (v : U32) : (le32 v).length = 4 := rfl
@[simp] theorem lef32_length (v : F32) : (lef32 v).length = 4 := rfl

/-- `u16le` undoes `le16` below 2^16. -/
theorem u16le_le16 (v : Nat) (h : v < 2 ^ 16) :
    u16le (BitVec.ofNat 8 v) (BitVec.ofNat 8 (v / 2 ^ 8)) = v := by
  simp only [u16le, BitVec.toNat_ofNat]
  omega

/-- `u32le` undoes `le32`. -/
theorem u32le_le32 (v : U32) :
    u32le (BitVec.ofNat 8 v.toNat) (BitVec.ofNat 8 (v.toNat / 2 ^ 8)) (BitVec.ofNat 8 (v.toNat / 2 ^ 16))
      (BitVec.ofNat 8 (v.toNat / 2 ^ 24)) = v := by
  have := v.isLt
  apply BitVec.eq_of_toNat_eq
  simp only [u32le, BitVec.toNat_ofNat]
  omega

/-- `le32` undoes `u32le`. -/
theorem le32_u32le (b0 b1 b2 b3 : Byte) : le32 (u32le b0 b1 b2 b3) = [b0, b1, b2, b3] := by
  have h0 := b0.isLt
  have h1 := b1.isLt
  have h2 := b2.isLt
  have h3 := b3.isLt
  simp only [le32, u32le, BitVec.toNat_ofNat, List.cons.injEq, and_true]
  refine ⟨?_, ?_, ?_, ?_⟩ <;>
    · apply BitVec.eq_of_toNat_eq
      simp only [BitVec.toNat_ofNat]
      omega

@[simp] theorem leBytes_length (k v : Nat) : (leBytes k v).length = k := by
  induction k generalizing v with
  | zero => rfl
  | succ k ih => simp [leBytes, ih]

/-- `leValue` undoes `leBytes` on a number that has as many bytes. -/
theorem leValue_leBytes (k v : Nat) (h : v < 2 ^ (8 * k)) : leValue (leBytes k v) = v := by
  induction k generalizing v with
  | zero => simp [leBytes, leValue]; omega
  | succ k ih =>
    have hk : v / 2 ^ 8 < 2 ^ (8 * k) := Nat.div_lt_of_lt_mul (by rwa [← Nat.pow_add, Nat.add_comm, ← Nat.mul_succ])
    simp only [leBytes, leValue, ih _ hk, BitVec.toNat_ofNat]
    omega

/-- A time of `TIME_W` bits is read back from its record's bytes. -/
theorem readTime_leBytes (c : Config) (now : Nat) (h : timeFits c now = true) :
    readTime c (leBytes c.timeBytes now) = some now := by
  have hb : now < 2 ^ (8 * c.timeBytes) :=
    Nat.lt_of_lt_of_le (of_decide_eq_true h) (Nat.pow_le_pow_right (by decide) (by unfold Config.timeBytes; omega))
  simp [readTime, leValue_leBytes _ _ hb, of_decide_eq_true h]

/-- A time that was read has `TIME_W` bits. -/
theorem timeFits_of_readTime {c : Config} {b : List Byte} {now : Nat} (h : readTime c b = some now) :
    timeFits c now = true := by
  unfold readTime at h
  split at h
  · injection h with h
    subst h
    exact decide_eq_true (by simp_all)
  · cases h

@[simp] theorem frameBytes_length (c : Config) (f : Frame) :
    (frameBytes c f).length = headerSize + f.payload.length := by
  simp [frameBytes, headerSize]
  omega

/-- A frame's bytes begin with the magic. -/
theorem frameBytes_take_magic (c : Config) (f : Frame) : (frameBytes c f).take 4 = le32 c.magic := by
  simp [frameBytes, le32]

/-- The header fields and the payload are read back. -/
theorem frameOfBytes_frameBytes (c : Config) (f : Frame) : frameOfBytes (frameBytes c f) = f := by
  simp [frameOfBytes, frameBytes, byteAt, le32, le16, headerSize]

/-- The declared length is the frame's own, when it fits the 16-bit field. -/
theorem declaredLength_frameBytes (c : Config) (f : Frame) (h : headerSize + f.payload.length < 2 ^ 16) :
    declaredLength (frameBytes c f) = headerSize + f.payload.length := by
  simpa [declaredLength, frameBytes, byteAt, le32, le16] using u16le_le16 _ h

/-- A frame that fits the receive buffer decodes to what it selects, where a length of the buffer fits the 16-bit field. -/
theorem decodeFrame_frameBytes {c : Config} {f : Frame} (hc : c.rxCap ≤ 65535) (h : payloadFits c f.payload = true) :
    decodeFrame c (frameBytes c f) = .instr (select c f) := by
  have hf : headerSize + f.payload.length ≤ c.rxCap := of_decide_eq_true h
  unfold decodeFrame
  rw [if_neg (by simp), if_neg (by simp [frameBytes_take_magic]), declaredLength_frameBytes _ _ (by omega),
    if_neg (by omega), if_neg (by simp), frameOfBytes_frameBytes]

/-! ### The handler table, 10_state.md R33 -/

/-- A bound slot answers its handler. -/
theorem handlerOf_bound {c : Config} {obj : Byte} {h : Handler} (hb : c.handlers[obj.toNat]? = some (some h)) :
    c.handlerOf obj = some h := by
  simp [Config.handlerOf, List.getD_eq_getElem?_getD, hb]

/-- An id at or above the table's size, or of an unbound slot, answers none (30_encoding.md R86). -/
theorem handlerOf_unbound {c : Config} {obj : Byte}
    (hu : c.handlerTableSize ≤ obj.toNat ∨ c.handlers[obj.toNat]? = some none) : c.handlerOf obj = none := by
  rcases hu with hu | hu
  · simp [Config.handlerOf, List.getD_eq_getElem?_getD, List.getElem?_eq_none hu]
  · simp [Config.handlerOf, List.getD_eq_getElem?_getD, hu]

/-- What it means that an object knows a command id. -/
theorem knows_iff {c : Config} {obj cmd : Byte} :
    knows c obj cmd = true ↔ ∃ h, c.handlerOf obj = some h ∧ cmd ∈ h.ids c.cmdIds := by
  unfold knows
  split <;> simp [*]

end Sys2Proof
end

