-- ==== Sys2Proof/Laws/Numbers.lean ====
section
/-! SUPPORT. What the comparisons and the clamp of 00_scope.md R8 and R11 answer, in every number format, and the patterns
arithmetic leaves alone. -/

namespace Sys2Proof.Machine

/-! ### Patterns -/

@[simp] theorem Val.ofBits_bits (n : NumFormat) (b : F32) : (Val.ofBits n b).bits = b := by
  unfold Val.ofBits
  split <;> rfl

theorem ofBits_of_notNaN {n : NumFormat} {b : F32} (h : isNaN n b = false) : Val.ofBits n b = .num b := by
  simp [Val.ofBits, h]
theorem ofBits_of_isNaN {n : NumFormat} {b : F32} (h : isNaN n b = true) : Val.ofBits n b = .nan b := by
  simp [Val.ofBits, h]

theorem magnitude_withSign (neg : Bool) {mag : Nat} (h : mag < 2 ^ 31) : magnitude (withSign neg mag) = mag := by
  cases neg <;> simp [magnitude, withSign, BitVec.toNat_ofNat] <;> omega

theorem signBit_withSign (neg : Bool) {mag : Nat} (h : mag < 2 ^ 31) : signBit (withSign neg mag) = neg := by
  cases neg <;> simp [signBit, withSign, BitVec.toNat_ofNat] <;> omega

theorem infMagnitude_lt (n : NumFormat) : infMagnitude n < 2 ^ 31 :=
  Nat.sub_lt (by decide) (Nat.two_pow_pos _)

/-- Rounding never goes past the infinity. -/
theorem roundMagnitude_le (n : NumFormat) (neg : Bool) (m : Nat) (e : Int) : roundMagnitude n neg m e ≤ infMagnitude n := by
  unfold roundMagnitude
  simp only
  split <;> omega

/-- Rounding gives a number or an infinity, never a NaN, and keeps the sign it is given. -/
theorem roundPack_fields (n : NumFormat) (neg : Bool) (m : Nat) (e : Int) :
    magnitude (roundPack n neg m e) = (if m = 0 then 0 else roundMagnitude n neg m e) ∧
      signBit (roundPack n neg m e) = neg ∧ isNaN n (roundPack n neg m e) = false := by
  have hle : (if m = 0 then 0 else roundMagnitude n neg m e) ≤ infMagnitude n := by
    split
    · exact Nat.zero_le _
    · exact roundMagnitude_le n neg m e
  have hlt := Nat.lt_of_le_of_lt hle (infMagnitude_lt n)
  refine ⟨magnitude_withSign neg hlt, signBit_withSign neg hlt, ?_⟩
  simpa [isNaN, roundPack, magnitude_withSign neg hlt] using hle

/-! ### Comparisons -/

@[simp] theorem flt_nan_left (a : F32) (b : Val) : flt (.nan a) b = false := by cases b <;> rfl
@[simp] theorem flt_nan_right (a : Val) (b : F32) : flt a (.nan b) = false := by cases a <;> rfl
@[simp] theorem fle_nan_left (a : F32) (b : Val) : fle (.nan a) b = false := by cases b <;> rfl
@[simp] theorem fle_nan_right (a : Val) (b : F32) : fle a (.nan b) = false := by cases a <;> rfl

theorem flt_num (a b : F32) : flt (.num a) (.num b) = decide (orderKey a < orderKey b) := rfl
theorem fle_num (a b : F32) : fle (.num a) (.num b) = decide (orderKey a ≤ orderKey b) := rfl

/-- A pattern whose place in the order is between those of two numbers is itself no NaN. -/
theorem notNaN_of_key {n : NumFormat} {b : F32} (h0 : 0 ≤ orderKey b) (h1 : orderKey b ≤ infMagnitude n) :
    isNaN n b = false := by
  unfold orderKey at h0 h1
  simp only [isNaN, decide_eq_false_iff_not, Nat.not_lt]
  split at h0 <;> split at h1 <;> simp_all

/-! ### 0.0 and 100.0 -/

theorem orderKey_zero : orderKey f32Zero = 0 := by decide

theorem notNaN_zero (n : NumFormat) : isNaN n f32Zero = false :=
  notNaN_of_key (by simp [orderKey_zero]) (by simp [orderKey_zero])

theorem notNaN_hundred (n : NumFormat) : isNaN n (f32Hundred n) = false := (roundPack_fields n false 100 0).2.2

theorem orderKey_hundred (n : NumFormat) : 0 ≤ orderKey (f32Hundred n) ∧ orderKey (f32Hundred n) ≤ infMagnitude n := by
  have h := notNaN_hundred n
  simp only [isNaN, decide_eq_false_iff_not, Nat.not_lt] at h
  rw [orderKey, show signBit (f32Hundred n) = false from (roundPack_fields n false 100 0).2.1]
  simpa using h

/-- In [0.0, 100.0], in terms of the place in the order alone. -/
theorem inPercentRange_iff (n : NumFormat) (b : F32) :
    inPercentRange n b = true ↔ 0 ≤ orderKey b ∧ orderKey b ≤ orderKey (f32Hundred n) := by
  constructor
  · intro h
    rcases hb : isNaN n b with _ | _
    · simpa [inPercentRange, ofBits_of_notNaN (notNaN_zero n), ofBits_of_notNaN (notNaN_hundred n),
        ofBits_of_notNaN hb, fle_num, orderKey_zero] using h
    · simp [inPercentRange, ofBits_of_isNaN hb] at h
  · rintro ⟨h0, h1⟩
    have hb : isNaN n b = false := notNaN_of_key h0 (Int.le_trans h1 (orderKey_hundred n).2)
    simp [inPercentRange, ofBits_of_notNaN (notNaN_zero n), ofBits_of_notNaN (notNaN_hundred n),
      ofBits_of_notNaN hb, fle_num, orderKey_zero, h0, h1]

/-- A number in [0.0, 100.0] is no NaN. -/
theorem notNaN_of_inPercentRange {n : NumFormat} {b : F32} (h : inPercentRange n b = true) : isNaN n b = false := by
  rw [inPercentRange_iff] at h
  exact notNaN_of_key h.1 (Int.le_trans h.2 (orderKey_hundred n).2)

/-! ### clampF, 00_scope.md R11 -/

/-- clampF answers the low end, the high end, or its argument. -/
theorem clampF_cases (n : NumFormat) (x : Val) (lo hi : F32) :
    clampF n x lo hi = lo ∨ clampF n x lo hi = hi ∨ clampF n x lo hi = x.bits := by
  cases x with
  | nan b => exact .inl rfl
  | num b =>
    simp only [clampF]
    split
    · exact .inl rfl
    · split
      · exact .inr (.inl rfl)
      · exact .inr (.inr rfl)

/-- A clamped percentage is a number in [0.0, 100.0], whatever it was made from (40_pid.md R108). -/
theorem clampPercent_inRange (n : NumFormat) (x : Val) : inPercentRange n (clampPercent n x) = true := by
  have hh := (orderKey_hundred n).1
  rw [inPercentRange_iff]
  cases x with
  | nan b => simpa [clampPercent, clampF, orderKey_zero] using hh
  | num b =>
    simp only [clampPercent, clampF, ofBits_of_notNaN (notNaN_zero n), ofBits_of_notNaN (notNaN_hundred n), flt_num,
      orderKey_zero, decide_eq_true_eq]
    split
    · simpa [orderKey_zero] using hh
    · split
      · exact ⟨hh, Int.le_refl _⟩
      · omega

@[simp] theorem clampPercent_nan (n : NumFormat) (b : F32) : clampPercent n (.nan b) = f32Zero := rfl

/-- A percentage in range is clamped to itself. -/
theorem clampPercent_of_inRange {n : NumFormat} {b : F32} (h : inPercentRange n b = true) :
    clampPercent n (Val.ofBits n b) = b := by
  have hb := notNaN_of_inPercentRange h
  rw [inPercentRange_iff] at h
  simp only [clampPercent, clampF, ofBits_of_notNaN hb, ofBits_of_notNaN (notNaN_zero n),
    ofBits_of_notNaN (notNaN_hundred n), flt_num, orderKey_zero, decide_eq_true_eq]
  rw [if_neg (by omega), if_neg (by omega)]

/-! ### The range check, 40_pid.md R101 -/

/-- The range check keeps a valid pair and otherwise takes the default range. -/
theorem checkRange_cases (c : Config) (p : PidStatus) :
    (validRange c.num p.pvMin p.pvMax = true ∧ checkRange c p = p) ∨
      (validRange c.num p.pvMin p.pvMax = false ∧
        checkRange c p = { p with pvMin := c.defaultPvMin, pvMax := c.defaultPvMax }) := by
  cases h : validRange c.num p.pvMin p.pvMax
  · exact .inr ⟨rfl, by rw [checkRange, if_neg]; simpa [validRange] using h⟩
  · exact .inl ⟨rfl, by rw [checkRange, if_pos]; simpa [validRange] using h⟩

/-- After the check the pair is valid, given a valid default range. -/
theorem checkRange_valid {c : Config} (h : validRange c.num c.defaultPvMin c.defaultPvMax = true) (p : PidStatus) :
    validRange c.num (checkRange c p).pvMin (checkRange c p).pvMax = true := by
  rcases checkRange_cases c p with ⟨hv, he⟩ | ⟨-, he⟩ <;> rw [he]
  · exact hv
  · exact h

/-- The check touches the two limits only. -/
theorem checkRange_frame (c : Config) (p : PidStatus) :
    checkRange c p = { p with pvMin := (checkRange c p).pvMin, pvMax := (checkRange c p).pvMax } := by
  rcases checkRange_cases c p with ⟨-, he⟩ | ⟨-, he⟩ <;> rw [he]

end Sys2Proof.Machine
end

