-- ==== Sys2Proof/Laws/State.lean ====
section
/-! SUPPORT. One lemma per field per update, so that no proof unfolds a record update. -/

namespace Sys2Proof.Machine

variable (s : State)

@[simp] theorem setPid_pid (v : PidStatus) : (setPid v s).pid = v := rfl
@[simp] theorem setPid_pend (v : PidStatus) : (setPid v s).pend = s.pend := rfl
@[simp] theorem setPid_hist (v : PidStatus) : (setPid v s).hist = s.hist := rfl
@[simp] theorem setPid_ctrl (v : PidStatus) : (setPid v s).ctrl = s.ctrl := rfl
@[simp] theorem setPid_tr (v : PidStatus) : (setPid v s).tr = s.tr := rfl
@[simp] theorem setPid_cnt (v : PidStatus) : (setPid v s).cnt = s.cnt := rfl
@[simp] theorem setPid_cfg (v : PidStatus) : (setPid v s).cfg = s.cfg := rfl
@[simp] theorem setPid_live (v : PidStatus) : (setPid v s).live = s.live := rfl
@[simp] theorem setPid_result (v : PidStatus) : (setPid v s).result = s.result := rfl
@[simp] theorem setPid_ops (v : PidStatus) : (setPid v s).ops = s.ops := rfl

@[simp] theorem setPend_pid (v : PidPending) : (setPend v s).pid = s.pid := rfl
@[simp] theorem setPend_pend (v : PidPending) : (setPend v s).pend = v := rfl
@[simp] theorem setPend_hist (v : PidPending) : (setPend v s).hist = s.hist := rfl
@[simp] theorem setPend_ctrl (v : PidPending) : (setPend v s).ctrl = s.ctrl := rfl
@[simp] theorem setPend_tr (v : PidPending) : (setPend v s).tr = s.tr := rfl
@[simp] theorem setPend_cnt (v : PidPending) : (setPend v s).cnt = s.cnt := rfl
@[simp] theorem setPend_cfg (v : PidPending) : (setPend v s).cfg = s.cfg := rfl
@[simp] theorem setPend_live (v : PidPending) : (setPend v s).live = s.live := rfl
@[simp] theorem setPend_result (v : PidPending) : (setPend v s).result = s.result := rfl
@[simp] theorem setPend_ops (v : PidPending) : (setPend v s).ops = s.ops := rfl

@[simp] theorem setHist_pid (v : PidHistory) : (setHist v s).pid = s.pid := rfl
@[simp] theorem setHist_pend (v : PidHistory) : (setHist v s).pend = s.pend := rfl
@[simp] theorem setHist_hist (v : PidHistory) : (setHist v s).hist = v := rfl
@[simp] theorem setHist_ctrl (v : PidHistory) : (setHist v s).ctrl = s.ctrl := rfl
@[simp] theorem setHist_tr (v : PidHistory) : (setHist v s).tr = s.tr := rfl
@[simp] theorem setHist_cnt (v : PidHistory) : (setHist v s).cnt = s.cnt := rfl
@[simp] theorem setHist_cfg (v : PidHistory) : (setHist v s).cfg = s.cfg := rfl
@[simp] theorem setHist_live (v : PidHistory) : (setHist v s).live = s.live := rfl
@[simp] theorem setHist_result (v : PidHistory) : (setHist v s).result = s.result := rfl
@[simp] theorem setHist_ops (v : PidHistory) : (setHist v s).ops = s.ops := rfl

@[simp] theorem setCtrl_pid (v : ControlState) : (setCtrl v s).pid = s.pid := rfl
@[simp] theorem setCtrl_pend (v : ControlState) : (setCtrl v s).pend = s.pend := rfl
@[simp] theorem setCtrl_hist (v : ControlState) : (setCtrl v s).hist = s.hist := rfl
@[simp] theorem setCtrl_ctrl (v : ControlState) : (setCtrl v s).ctrl = v := rfl
@[simp] theorem setCtrl_tr (v : ControlState) : (setCtrl v s).tr = s.tr := rfl
@[simp] theorem setCtrl_cnt (v : ControlState) : (setCtrl v s).cnt = s.cnt := rfl
@[simp] theorem setCtrl_cfg (v : ControlState) : (setCtrl v s).cfg = s.cfg := rfl
@[simp] theorem setCtrl_live (v : ControlState) : (setCtrl v s).live = s.live := rfl
@[simp] theorem setCtrl_result (v : ControlState) : (setCtrl v s).result = s.result := rfl
@[simp] theorem setCtrl_ops (v : ControlState) : (setCtrl v s).ops = s.ops := rfl

@[simp] theorem setTr_pid (v : TransportState) : (setTr v s).pid = s.pid := rfl
@[simp] theorem setTr_pend (v : TransportState) : (setTr v s).pend = s.pend := rfl
@[simp] theorem setTr_hist (v : TransportState) : (setTr v s).hist = s.hist := rfl
@[simp] theorem setTr_ctrl (v : TransportState) : (setTr v s).ctrl = s.ctrl := rfl
@[simp] theorem setTr_tr (v : TransportState) : (setTr v s).tr = v := rfl
@[simp] theorem setTr_cnt (v : TransportState) : (setTr v s).cnt = s.cnt := rfl
@[simp] theorem setTr_cfg (v : TransportState) : (setTr v s).cfg = s.cfg := rfl
@[simp] theorem setTr_live (v : TransportState) : (setTr v s).live = s.live := rfl
@[simp] theorem setTr_result (v : TransportState) : (setTr v s).result = s.result := rfl
@[simp] theorem setTr_ops (v : TransportState) : (setTr v s).ops = s.ops := rfl

@[simp] theorem count_pid (c : Counter) (k : Nat) : (count c k s).pid = s.pid := rfl
@[simp] theorem count_pend (c : Counter) (k : Nat) : (count c k s).pend = s.pend := rfl
@[simp] theorem count_hist (c : Counter) (k : Nat) : (count c k s).hist = s.hist := rfl
@[simp] theorem count_ctrl (c : Counter) (k : Nat) : (count c k s).ctrl = s.ctrl := rfl
@[simp] theorem count_tr (c : Counter) (k : Nat) : (count c k s).tr = s.tr := rfl
@[simp] theorem count_cnt (c : Counter) (k : Nat) : (count c k s).cnt = s.cnt.add s.cfg.counterW c k := rfl
@[simp] theorem count_cfg (c : Counter) (k : Nat) : (count c k s).cfg = s.cfg := rfl
@[simp] theorem count_live (c : Counter) (k : Nat) : (count c k s).live = s.live := rfl
@[simp] theorem count_result (c : Counter) (k : Nat) : (count c k s).result = s.result := rfl
@[simp] theorem count_ops (c : Counter) (k : Nat) : (count c k s).ops = s.ops := rfl

@[simp] theorem returning_pid (r : OpResult) : (returning r s).pid = s.pid := rfl
@[simp] theorem returning_pend (r : OpResult) : (returning r s).pend = s.pend := rfl
@[simp] theorem returning_hist (r : OpResult) : (returning r s).hist = s.hist := rfl
@[simp] theorem returning_ctrl (r : OpResult) : (returning r s).ctrl = s.ctrl := rfl
@[simp] theorem returning_tr (r : OpResult) : (returning r s).tr = s.tr := rfl
@[simp] theorem returning_cnt (r : OpResult) : (returning r s).cnt = s.cnt := rfl
@[simp] theorem returning_cfg (r : OpResult) : (returning r s).cfg = s.cfg := rfl
@[simp] theorem returning_live (r : OpResult) : (returning r s).live = s.live := rfl
@[simp] theorem returning_result (r : OpResult) : (returning r s).result = r := rfl
@[simp] theorem returning_ops (r : OpResult) : (returning r s).ops = s.ops := rfl

@[simp] theorem append_pid (b : Byte) : (append b s).pid = s.pid := rfl
@[simp] theorem append_pend (b : Byte) : (append b s).pend = s.pend := rfl
@[simp] theorem append_hist (b : Byte) : (append b s).hist = s.hist := rfl
@[simp] theorem append_ctrl (b : Byte) : (append b s).ctrl = s.ctrl := rfl
@[simp] theorem append_tr (b : Byte) : (append b s).tr = { s.tr with rx := s.tr.rx ++ [b] } := rfl
@[simp] theorem append_cnt (b : Byte) : (append b s).cnt = s.cnt := rfl
@[simp] theorem append_cfg (b : Byte) : (append b s).cfg = s.cfg := rfl
@[simp] theorem append_live (b : Byte) : (append b s).live = s.live := rfl
@[simp] theorem append_result (b : Byte) : (append b s).result = s.result := rfl
@[simp] theorem append_ops (b : Byte) : (append b s).ops = s.ops := rfl

@[simp] theorem clear_pid : (clear s).pid = s.pid := rfl
@[simp] theorem clear_pend : (clear s).pend = s.pend := rfl
@[simp] theorem clear_hist : (clear s).hist = s.hist := rfl
@[simp] theorem clear_ctrl : (clear s).ctrl = s.ctrl := rfl
@[simp] theorem clear_tr : (clear s).tr = { s.tr with rx := [] } := rfl
@[simp] theorem clear_cnt : (clear s).cnt = s.cnt := rfl
@[simp] theorem clear_cfg : (clear s).cfg = s.cfg := rfl
@[simp] theorem clear_live : (clear s).live = s.live := rfl
@[simp] theorem clear_result : (clear s).result = s.result := rfl
@[simp] theorem clear_ops : (clear s).ops = s.ops := rfl

@[simp] theorem dropFront_pid (k : Nat) : (dropFront k s).pid = s.pid := rfl
@[simp] theorem dropFront_pend (k : Nat) : (dropFront k s).pend = s.pend := rfl
@[simp] theorem dropFront_hist (k : Nat) : (dropFront k s).hist = s.hist := rfl
@[simp] theorem dropFront_ctrl (k : Nat) : (dropFront k s).ctrl = s.ctrl := rfl
@[simp] theorem dropFront_tr (k : Nat) : (dropFront k s).tr = { s.tr with rx := s.tr.rx.drop k } := rfl
@[simp] theorem dropFront_cnt (k : Nat) : (dropFront k s).cnt = s.cnt := rfl
@[simp] theorem dropFront_cfg (k : Nat) : (dropFront k s).cfg = s.cfg := rfl
@[simp] theorem dropFront_live (k : Nat) : (dropFront k s).live = s.live := rfl
@[simp] theorem dropFront_result (k : Nat) : (dropFront k s).result = s.result := rfl
@[simp] theorem dropFront_ops (k : Nat) : (dropFront k s).ops = s.ops := rfl

@[simp] theorem setInQ_pid (b : List Byte) : (setInQ b s).pid = s.pid := rfl
@[simp] theorem setInQ_pend (b : List Byte) : (setInQ b s).pend = s.pend := rfl
@[simp] theorem setInQ_hist (b : List Byte) : (setInQ b s).hist = s.hist := rfl
@[simp] theorem setInQ_ctrl (b : List Byte) : (setInQ b s).ctrl = s.ctrl := rfl
@[simp] theorem setInQ_tr (b : List Byte) : (setInQ b s).tr = { s.tr with inQ := b } := rfl
@[simp] theorem setInQ_cnt (b : List Byte) : (setInQ b s).cnt = s.cnt := rfl
@[simp] theorem setInQ_cfg (b : List Byte) : (setInQ b s).cfg = s.cfg := rfl
@[simp] theorem setInQ_live (b : List Byte) : (setInQ b s).live = s.live := rfl
@[simp] theorem setInQ_result (b : List Byte) : (setInQ b s).result = s.result := rfl
@[simp] theorem setInQ_ops (b : List Byte) : (setInQ b s).ops = s.ops := rfl

@[simp] theorem emit_pid (b : List Byte) : (emit b s).pid = s.pid := rfl
@[simp] theorem emit_pend (b : List Byte) : (emit b s).pend = s.pend := rfl
@[simp] theorem emit_hist (b : List Byte) : (emit b s).hist = s.hist := rfl
@[simp] theorem emit_ctrl (b : List Byte) : (emit b s).ctrl = s.ctrl := rfl
@[simp] theorem emit_tr (b : List Byte) : (emit b s).tr = { s.tr with outQ := s.tr.outQ ++ b } := rfl
@[simp] theorem emit_cnt (b : List Byte) : (emit b s).cnt = s.cnt := rfl
@[simp] theorem emit_cfg (b : List Byte) : (emit b s).cfg = s.cfg := rfl
@[simp] theorem emit_live (b : List Byte) : (emit b s).live = s.live := rfl
@[simp] theorem emit_result (b : List Byte) : (emit b s).result = s.result := rfl
@[simp] theorem emit_ops (b : List Byte) : (emit b s).ops = s.ops := rfl

@[simp] theorem invoke_pid (r : List Byte) : (invoke r s).pid = s.pid := rfl
@[simp] theorem invoke_pend (r : List Byte) : (invoke r s).pend = s.pend := rfl
@[simp] theorem invoke_hist (r : List Byte) : (invoke r s).hist = s.hist := rfl
@[simp] theorem invoke_ctrl (r : List Byte) : (invoke r s).ctrl = s.ctrl := rfl
@[simp] theorem invoke_tr (r : List Byte) : (invoke r s).tr = s.tr := rfl
@[simp] theorem invoke_cnt (r : List Byte) : (invoke r s).cnt = s.cnt := rfl
@[simp] theorem invoke_cfg (r : List Byte) : (invoke r s).cfg = s.cfg := rfl
@[simp] theorem invoke_live (r : List Byte) : (invoke r s).live = s.live := rfl
@[simp] theorem invoke_result (r : List Byte) : (invoke r s).result = s.result := rfl
@[simp] theorem invoke_ops (r : List Byte) : (invoke r s).ops = r :: s.ops := rfl

end Sys2Proof.Machine
end

