-- ==== Sys2Proof/Laws/Ops.lean ====
section
/-! SUPPORT. What each shared operation can do, said once. -/

namespace Sys2Proof.Machine

/-- A constructed block runs the operation. -/
theorem whenLive_of_live {run : State → State} {s : State} (h : s.live = true) : whenLive run s = .next (run s) := by
  simp [whenLive, h]

/-- Before RESET the operation is refused. -/
theorem whenLive_of_not_live {run : State → State} {s : State} (h : s.live = false) :
    whenLive run s = .refused .beforeReset := by
  simp [whenLive, h]

/-- Inversion: a next state comes from a constructed block, and is the operation's. -/
theorem whenLive_next {run : State → State} {s t : State} (h : whenLive run s = .next t) :
    s.live = true ∧ t = run s := by
  unfold whenLive at h
  split at h
  · exact ⟨‹_›, by injection h with h; exact h.symm⟩
  · cases h

/-- Recording an error touches the counters only. -/
theorem raise_frame (e : ErrorClass) (k : Nat) (s : State) : raise e k s = { s with cnt := (raise e k s).cnt } := by
  cases e <;> rfl

@[simp] theorem raise_pid (e : ErrorClass) (k : Nat) (s : State) : (raise e k s).pid = s.pid := by cases e <;> rfl
@[simp] theorem raise_pend (e : ErrorClass) (k : Nat) (s : State) : (raise e k s).pend = s.pend := by cases e <;> rfl
@[simp] theorem raise_hist (e : ErrorClass) (k : Nat) (s : State) : (raise e k s).hist = s.hist := by cases e <;> rfl
@[simp] theorem raise_ctrl (e : ErrorClass) (k : Nat) (s : State) : (raise e k s).ctrl = s.ctrl := by cases e <;> rfl
@[simp] theorem raise_tr (e : ErrorClass) (k : Nat) (s : State) : (raise e k s).tr = s.tr := by cases e <;> rfl
@[simp] theorem raise_cfg (e : ErrorClass) (k : Nat) (s : State) : (raise e k s).cfg = s.cfg := by cases e <;> rfl
@[simp] theorem raise_live (e : ErrorClass) (k : Nat) (s : State) : (raise e k s).live = s.live := by cases e <;> rfl
@[simp] theorem raise_result (e : ErrorClass) (k : Nat) (s : State) : (raise e k s).result = s.result := by
  cases e <;> rfl
@[simp] theorem raise_ops (e : ErrorClass) (k : Nat) (s : State) : (raise e k s).ops = s.ops := by cases e <;> rfl

@[simp] theorem raise_invalidMode (k : Nat) (s : State) : raise .invalidMode k s = s := rfl

/-- A response is the envelope of 30_encoding.md R90 around the cut payload. -/
theorem responseBytes_eq (c : Config) (req : Frame) (out : List Byte) :
    responseBytes c req out =
      le32 c.magic ++ le16 (headerSize + (out.take (c.txCap - headerSize)).length) ++
        [req.seq, req.objectId, req.cmdId, req.flags] ++ out.take (c.txCap - headerSize) := rfl

/-- A response is never longer than `TX_CAP`. -/
theorem responseBytes_length_le (c : Config) (req : Frame) (out : List Byte) (h : headerSize ≤ c.txCap) :
    (responseBytes c req out).length ≤ c.txCap := by
  simp only [responseBytes, frameBytes_length, List.length_take]
  omega

/-- What a handler's reply turns into. -/
theorem finish_cases (req : Frame) (done : State × Reply) :
    (∃ buf, done.2 = .done buf ∧ finish req done = respond req buf done.1) ∨
      (∃ why, done.2 = .failed why ∧ finish req done = respond req [] (raise why 0 done.1)) := by
  unfold finish
  cases h : done.2 with
  | done buf => exact .inl ⟨buf, rfl, rfl⟩
  | failed why => exact .inr ⟨why, rfl, rfl⟩

/-- A float command writes on exactly 4 payload bytes and otherwise fails with nothing written. -/
theorem withFloat_cases (write : F32 → State → State) (p : List Byte) (s : State) :
    (∃ b0 b1 b2 b3, p = [b0, b1, b2, b3] ∧ withFloat write p s = (write (f32le b0 b1 b2 b3) s, .done [])) ∨
      (p.length ≠ 4 ∧ withFloat write p s = (s, .failed .payload)) := by
  match p with
  | [] => exact .inr ⟨by simp, rfl⟩
  | [_] => exact .inr ⟨by simp, rfl⟩
  | [_, _] => exact .inr ⟨by simp, rfl⟩
  | [_, _, _] => exact .inr ⟨by simp, rfl⟩
  | [b0, b1, b2, b3] => exact .inl ⟨b0, b1, b2, b3, rfl, rfl⟩
  | _ :: _ :: _ :: _ :: _ :: _ => exact .inr ⟨by simp, rfl⟩

/-- A mode command writes on exactly 1 payload byte and otherwise fails with nothing written. -/
theorem withByte_cases (write : Byte → State → State) (p : List Byte) (s : State) :
    (∃ b, p = [b] ∧ withByte write p s = (write b s, .done [])) ∨
      (p.length ≠ 1 ∧ withByte write p s = (s, .failed .payload)) := by
  match p with
  | [] => exact .inr ⟨by simp, rfl⟩
  | [b] => exact .inl ⟨b, rfl, rfl⟩
  | _ :: _ :: _ => exact .inr ⟨by simp, rfl⟩

/-- A read command leaves the state alone, and answers the record or fails. -/
theorem withRecord_cases (size : Nat) (record : State → List Byte) (s : State) :
    (size ≤ s.cfg.outCap ∧ withRecord size record s = (s, .done (record s))) ∨
      (s.cfg.outCap < size ∧ withRecord size record s = (s, .failed .statusCap)) := by
  unfold withRecord
  split
  · exact .inr ⟨‹_›, rfl⟩
  · exact .inl ⟨by omega, rfl⟩

@[simp] theorem serPid_length (p : PidStatus) : (serPid p).length = pidRecordSize := by simp [serPid]

@[simp] theorem serComposite_length (c : ControlState) (p : PidStatus) :
    (serComposite c p).length = compositeRecordSize := by simp [serComposite, pidRecordSize, compositeRecordSize]

end Sys2Proof.Machine
end

