-- ==== Sys2Proof/Laws/PerInstr.lean ====
section
/-! SUPPORT. Statements about every instruction, one lemma per constructor. -/

namespace Sys2Proof.Laws

set_option Elab.async false

/-- How many bytes an instruction's encoding has: a selector and its arguments, or a header and a payload. -/
def encodedLength (c : Config) : Instr → Nat
  | .reset => 1
  | .rx bytes => 1 + bytes.length
  | .poll _ => 1 + c.timeBytes
  | .tick _ _ => 5 + c.timeBytes
  | .ok _ => 1 + c.timeBytes
  | .readCounters => 1
  | .txDrain => 1
  | .readStatus _ _ p => headerSize + p.length
  | .setSp _ _ p => headerSize + p.length
  | .setCv _ _ p => headerSize + p.length
  | .setKp _ _ p => headerSize + p.length
  | .setKi _ _ p => headerSize + p.length
  | .setKd _ _ p => headerSize + p.length
  | .setPvMin _ _ p => headerSize + p.length
  | .setPvMax _ _ p => headerSize + p.length
  | .setMode _ _ p => headerSize + p.length
  | .readComposite _ _ p => headerSize + p.length
  | .setOuterMode _ _ p => headerSize + p.length
  | .setCtrlSp _ _ p => headerSize + p.length
  | .setInnerMode _ _ p => headerSize + p.length
  | .noHandler _ _ _ _ p => headerSize + p.length
  | .unknownCmd _ _ _ p => headerSize + p.length

/-- The family: the encoder writes as many bytes as the instruction's operands need (30_encoding.md R70, R75, R91). -/
def EncodeLength.Statement (i : Instr) : Prop := ∀ c : Config, (encode c i).length = encodedLength c i

theorem EncodeLength.reset : EncodeLength.Statement (.reset) := fun _ => by simp [encode, encodedLength]
theorem EncodeLength.rx (bytes : List Byte) : EncodeLength.Statement (.rx bytes) := fun _ => by simp [encode, encodedLength, Nat.add_comm]
theorem EncodeLength.poll (now : Nat) : EncodeLength.Statement (.poll now) := fun _ => by simp [encode, encodedLength, Nat.add_comm]
theorem EncodeLength.tick (pv : F32) (now : Nat) : EncodeLength.Statement (.tick pv now) := fun _ => by simp [encode, encodedLength]; omega
theorem EncodeLength.ok (now : Nat) : EncodeLength.Statement (.ok now) := fun _ => by simp [encode, encodedLength, Nat.add_comm]
theorem EncodeLength.readCounters : EncodeLength.Statement (.readCounters) := fun _ => by simp [encode, encodedLength]
theorem EncodeLength.txDrain : EncodeLength.Statement (.txDrain) := fun _ => by simp [encode, encodedLength]
theorem EncodeLength.readStatus (tag : Tag) (g : Byte) (p : List Byte) : EncodeLength.Statement (.readStatus tag g p) :=
  fun _ => frameBytes_length _ _
theorem EncodeLength.setSp (tag : Tag) (g : Byte) (p : List Byte) : EncodeLength.Statement (.setSp tag g p) :=
  fun _ => frameBytes_length _ _
theorem EncodeLength.setCv (tag : Tag) (g : Byte) (p : List Byte) : EncodeLength.Statement (.setCv tag g p) :=
  fun _ => frameBytes_length _ _
theorem EncodeLength.setKp (tag : Tag) (g : Byte) (p : List Byte) : EncodeLength.Statement (.setKp tag g p) :=
  fun _ => frameBytes_length _ _
theorem EncodeLength.setKi (tag : Tag) (g : Byte) (p : List Byte) : EncodeLength.Statement (.setKi tag g p) :=
  fun _ => frameBytes_length _ _
theorem EncodeLength.setKd (tag : Tag) (g : Byte) (p : List Byte) : EncodeLength.Statement (.setKd tag g p) :=
  fun _ => frameBytes_length _ _
theorem EncodeLength.setPvMin (tag : Tag) (g : Byte) (p : List Byte) : EncodeLength.Statement (.setPvMin tag g p) :=
  fun _ => frameBytes_length _ _
theorem EncodeLength.setPvMax (tag : Tag) (g : Byte) (p : List Byte) : EncodeLength.Statement (.setPvMax tag g p) :=
  fun _ => frameBytes_length _ _
theorem EncodeLength.setMode (tag : Tag) (g : Byte) (p : List Byte) : EncodeLength.Statement (.setMode tag g p) :=
  fun _ => frameBytes_length _ _
theorem EncodeLength.readComposite (tag : Tag) (g : Byte) (p : List Byte) : EncodeLength.Statement (.readComposite tag g p) :=
  fun _ => frameBytes_length _ _
theorem EncodeLength.setOuterMode (tag : Tag) (g : Byte) (p : List Byte) : EncodeLength.Statement (.setOuterMode tag g p) :=
  fun _ => frameBytes_length _ _
theorem EncodeLength.setCtrlSp (tag : Tag) (g : Byte) (p : List Byte) : EncodeLength.Statement (.setCtrlSp tag g p) :=
  fun _ => frameBytes_length _ _
theorem EncodeLength.setInnerMode (tag : Tag) (g : Byte) (p : List Byte) : EncodeLength.Statement (.setInnerMode tag g p) :=
  fun _ => frameBytes_length _ _
theorem EncodeLength.noHandler (q obj cmd g : Byte) (p : List Byte) : EncodeLength.Statement (.noHandler q obj cmd g p) :=
  fun _ => frameBytes_length _ _
theorem EncodeLength.unknownCmd (tag : Tag) (cmd g : Byte) (p : List Byte) : EncodeLength.Statement (.unknownCmd tag cmd g p) :=
  fun _ => frameBytes_length _ _

end Sys2Proof.Laws
end

