-- ==== Sys2Proof/Laws/Pid.lean ====
section
/-! SUPPORT. What applyPending, update and the arbiter's arms can do, said once. -/

namespace Sys2Proof.Machine

/-! ### applyPending, 40_pid.md R100 to R102 -/

theorem applyManualCv_cases (c : Config) (v : F32) (p : PidStatus) :
    (p.mode = c.modes.pidManual ∧ applyManualCv c v p = { p with cv := clampPercent c.num (Val.ofBits c.num v) }) ∨
      (p.mode ≠ c.modes.pidManual ∧ applyManualCv c v p = p) := by
  unfold applyManualCv
  split
  · exact .inl ⟨‹_›, rfl⟩
  · exact .inr ⟨‹_›, rfl⟩

@[simp] theorem applySetpointAndCv_mode (c : Config) (q : PidPending) (p : PidStatus) :
    (applySetpointAndCv c q p).mode = p.mode := by
  unfold applySetpointAndCv applyManualCv
  cases q.cv <;> simp
  split <;> rfl

/-- The limits after a drain: valid if they were, given a valid default range. -/
theorem applyLimits_valid {c : Config} (h : validRange c.num c.defaultPvMin c.defaultPvMax = true) (q : PidPending)
    (p : PidStatus) (hp : validRange c.num p.pvMin p.pvMax = true) :
    validRange c.num (applyLimits c q p).pvMin (applyLimits c q p).pvMax = true := by
  unfold applyLimits
  simp only
  split
  · exact checkRange_valid h _
  · rename_i hn
    simp only [Bool.or_eq_true, not_or, Option.not_isSome_iff_eq_none] at hn
    simpa [hn.1, hn.2] using hp

/-- The limits' drain touches the limits only. -/
theorem applyLimits_frame (c : Config) (q : PidPending) (p : PidStatus) :
    applyLimits c q p = { p with pvMin := (applyLimits c q p).pvMin, pvMax := (applyLimits c q p).pvMax } := by
  unfold applyLimits
  simp only
  split
  · rw [checkRange_frame]
  · rfl

theorem applySetpointAndCv_limits (c : Config) (q : PidPending) (p : PidStatus) :
    (applySetpointAndCv c q p).pvMin = p.pvMin ∧ (applySetpointAndCv c q p).pvMax = p.pvMax := by
  unfold applySetpointAndCv applyManualCv
  cases q.cv <;> simp
  split <;> simp

/-- A drain keeps the range valid (10_state.md R23). -/
theorem drainPending_valid {c : Config} (h : validRange c.num c.defaultPvMin c.defaultPvMax = true) (q : PidPending)
    (p : PidStatus) (hp : validRange c.num p.pvMin p.pvMax = true) :
    validRange c.num (drainPending c q p).pvMin (drainPending c q p).pvMax = true := by
  unfold drainPending applyMode
  apply applyLimits_valid h
  simpa [applyGains, applySetpointAndCv_limits] using hp

/-- Cv after a drain: the clamped manual value if one was staged in Manual mode, else as it was (40_pid.md R102). -/
theorem drainPending_cv (c : Config) (q : PidPending) (p : PidStatus) :
    (drainPending c q p).cv =
      match q.cv with
      | some v => if p.mode = c.modes.pidManual then clampPercent c.num (Val.ofBits c.num v) else p.cv
      | none => p.cv := by
  unfold drainPending applyMode
  rw [applyLimits_frame]
  unfold applyGains applySetpointAndCv applyManualCv
  cases q.cv <;> simp
  split <;> rfl

/-! ### update, 40_pid.md R103 to R112 -/

/-- The Auto arm either writes the timestamp alone, or computes. -/
theorem updateAuto_cases (now : Nat) (s : State) :
    updateAuto now s = updateStamp now s ∨
      (s.hist.lastTick ≠ 0 ∧
        updateAuto now s = updateCompute (elapsed s.cfg now s.hist.lastTick) now s) := by
  unfold updateAuto
  split
  · exact .inl rfl
  · simp only
    split
    · exact .inl rfl
    · exact .inr ⟨‹_›, rfl⟩

/-- The four arms, by the stored mode. -/
theorem modeArm_cases (pv : F32) (now : Nat) (s : State) :
    (s.pid.mode = s.cfg.modes.pidOff ∧ modeArm pv now s = updateOff pv s) ∨
    (s.pid.mode = s.cfg.modes.pidManual ∧ modeArm pv now s = updateManual pv s) ∨
    (s.pid.mode = s.cfg.modes.pidAuto ∧ modeArm pv now s = updateAuto now s) ∨
    (s.pid.mode ∉ s.cfg.modes.pid ∧ modeArm pv now s = updateInvalid pv s) := by
  unfold modeArm
  split
  · exact .inl ⟨‹_›, rfl⟩
  · split
    · exact .inr (.inl ⟨‹_›, rfl⟩)
    · split
      · exact .inr (.inr (.inl ⟨‹_›, rfl⟩))
      · exact .inr (.inr (.inr ⟨by simp_all [ModeCodes.pid], rfl⟩))

/-- The value an arm returns is Cv as it stands afterwards (40_pid.md R112). -/
theorem modeArm_value (pv : F32) (now : Nat) (s : State) : (modeArm pv now s).2 = (modeArm pv now s).1.pid.cv := by
  rcases modeArm_cases pv now s with ⟨-, h⟩ | ⟨-, h⟩ | ⟨-, h⟩ | ⟨-, h⟩ <;> rw [h]
  · rfl
  · rfl
  · rcases updateAuto_cases now s with h | ⟨-, h⟩ <;> rw [h] <;> rfl
  · rfl

/-! ### The arbiter, 41_arbiter.md R132 to R138 -/

/-- After the fallback the outer mode is one of the four. -/
theorem outerFallback_legal (s : State) : (outerFallback s).ctrl.outer ∈ s.cfg.modes.outer := by
  unfold outerFallback
  split
  · assumption
  · simp [ModeCodes.outer]

/-- Every arm drives the PID in one of the ways of the table of 41_arbiter.md R134. -/
theorem outerArm_cases (pv : F32) (s : State) :
    outerArm pv s = driveOff .off pv s ∨ outerArm pv s = driveManual .off pv s ∨
      outerArm pv s = driveAuto .closedLoop s ∨
      outerArm pv s = driveOutput .boost s.ctrl.boostCv pv s ∨
      outerArm pv s = driveOutput .feedForward s.ctrl.ffCv pv s := by
  unfold outerArm armOff armOperatorManual armOperatorAuto armProgrammedAuto
  split
  · exact .inl rfl
  · split
    · exact .inr (.inl rfl)
    · split
      · exact .inr (.inr (.inl rfl))
      · split
        · exact .inl rfl
        · exact .inr (.inr (.inr (.inl rfl)))
        · exact .inr (.inr (.inr (.inr rfl)))
        · exact .inr (.inr (.inl rfl))

end Sys2Proof.Machine
end

