-- ==== Sys2Proof/Laws/Step.lean ====
section
/-! SUPPORT. What a step can do, said once. -/

namespace Sys2Proof.Machine

/-- Inversion: a step that answers a next state waited, or ran the decoded operation at the head of the queue. -/
theorem step_next {s t : State} (h : step s = .next t) :
    (s.ops = [] ∧ t = s) ∨
      ∃ record rest i, s.ops = record :: rest ∧ decodeOp s.cfg record = .instr i ∧
        exec i { s with ops := rest } = .next t := by
  unfold step fetch at h
  cases ho : s.ops with
  | nil =>
    rw [ho] at h
    injection h with h
    exact .inl ⟨rfl, h.symm⟩
  | cons record rest =>
    rw [ho] at h
    simp only at h
    cases hd : decodeOp s.cfg record with
    | instr i =>
      rw [hd] at h
      exact .inr ⟨record, rest, i, rfl, hd, h⟩
    | rejected why =>
      rw [hd] at h
      cases h

/-- What the decoder of records reads is a well-formed host operation. -/
theorem decodeOp_sound {c : Config} {record : List Byte} {i : Instr} (h : decodeOp c record = .instr i) :
    i.space = .host ∧ i.wf c = true := by
  revert h
  fun_cases decodeOp c record <;> intro h <;> cases h <;> refine ⟨rfl, ?_⟩ <;>
    first
      | rfl
      | exact timeFits_of_readTime ‹_›

end Sys2Proof.Machine
end

