-- ==== Sys2Proof/Laws/Transport.lean ====
section
/-! SUPPORT. What the steps of POLL can do, said once. -/

namespace Sys2Proof.Machine

/-! ### Step 1, 42_transport.md R151 -/

/-- One byte joins the buffer, or starts it anew after an overflow. -/
theorem drainByte_cases (s : State) (b : Byte) :
    (s.tr.rx.length ≠ s.cfg.rxCap ∧ drainByte s b = append b s) ∨
      (s.tr.rx.length = s.cfg.rxCap ∧ drainByte s b = append b (raise .overflow 0 (clear s))) := by
  unfold drainByte
  split
  · exact .inr ⟨‹_›, rfl⟩
  · exact .inl ⟨‹_›, rfl⟩

/-- One byte of the drain touches the buffer and the counters only. -/
theorem drainByte_frame (s : State) (b : Byte) :
    drainByte s b =
      { s with tr := { s.tr with rx := (drainByte s b).tr.rx }, cnt := (drainByte s b).cnt } := by
  rcases drainByte_cases s b with ⟨-, h⟩ | ⟨-, h⟩ <;> rw [h] <;> rfl

/-- One byte of the drain keeps the buffer within a capacity of at least 1. -/
theorem drainByte_bounded {s : State} (b : Byte) (hc : 1 ≤ s.cfg.rxCap) (h : s.tr.rx.length ≤ s.cfg.rxCap) :
    (drainByte s b).tr.rx.length ≤ s.cfg.rxCap := by
  rcases drainByte_cases s b with ⟨hn, he⟩ | ⟨-, he⟩ <;> rw [he] <;> simp <;> omega

/-- The drain's bytes, taken one by one, touch the buffer and the counters only and keep the buffer bounded. -/
theorem foldl_drainByte (bytes : List Byte) (s : State) :
    (∃ rx cnt, bytes.foldl drainByte s = { s with tr := { s.tr with rx := rx }, cnt := cnt }) ∧
      (1 ≤ s.cfg.rxCap → s.tr.rx.length ≤ s.cfg.rxCap → (bytes.foldl drainByte s).tr.rx.length ≤ s.cfg.rxCap) := by
  induction bytes generalizing s with
  | nil => exact ⟨⟨s.tr.rx, s.cnt, rfl⟩, fun _ h => h⟩
  | cons b rest ih =>
    have hf := drainByte_frame s b
    have hcfg : (drainByte s b).cfg = s.cfg := by rw [hf]
    obtain ⟨⟨rx, cnt, he⟩, hb⟩ := ih (drainByte s b)
    refine ⟨⟨rx, cnt, ?_⟩, fun hc h => ?_⟩
    · rw [List.foldl_cons, he]
      rw [hf]
    · rw [List.foldl_cons]
      rw [hcfg] at hb
      exact hb hc (drainByte_bounded b hc h)

/-- The drain empties the input and touches the buffer and the counters besides. -/
theorem drain_frame (s : State) :
    ∃ rx cnt, drain s = { s with tr := { s.tr with rx := rx, inQ := [] }, cnt := cnt } := by
  obtain ⟨⟨rx, cnt, he⟩, -⟩ := foldl_drainByte s.tr.inQ s
  exact ⟨rx, cnt, by simp only [drain, he]; rfl⟩

/-! ### Step 2, 42_transport.md R152, R153 -/

@[simp] theorem findMagic_nil (m : List Byte) : findMagic m [] = none := rfl

/-- What the search finds: the magic stands there, and at no smaller index. -/
theorem findMagic_some {m b : List Byte} {i : Nat} (h : findMagic m b = some i) :
    i < b.length ∧ m <+: b.drop i ∧ ∀ j < i, ¬ m <+: b.drop j := by
  induction b generalizing i with
  | nil => simp at h
  | cons x rest ih =>
    unfold findMagic at h
    split at h
    · rename_i hp
      injection h with h
      subst h
      exact ⟨by simp, by simpa using hp, fun j hj => absurd hj (by omega)⟩
    · rename_i hp
      cases hr : findMagic m rest with
      | none => simp [hr] at h
      | some k =>
        simp only [hr, Option.map_some, Option.some.injEq] at h
        subst h
        obtain ⟨h1, h2, h3⟩ := ih hr
        refine ⟨by simp; omega, by simpa using h2, fun j hj => ?_⟩
        cases j with
        | zero => simpa using hp
        | succ j => simpa using h3 j (by omega)

/-- What it means that the search finds nothing. -/
theorem findMagic_none {m b : List Byte} (hm : m ≠ []) (h : findMagic m b = none) : ∀ i, ¬ m <+: b.drop i := by
  induction b with
  | nil => intro i; simpa using hm
  | cons x rest ih =>
    unfold findMagic at h
    split at h
    · cases h
    · rename_i hp
      cases hr : findMagic m rest with
      | some k => simp [hr] at h
      | none =>
        intro i
        cases i with
        | zero => simpa using hp
        | succ i => simpa using ih hr i

/-- Dropping skipped bytes touches the buffer and the counters only. -/
theorem resyncDrop_rx (k : Nat) (s : State) : (resyncDrop k s).tr.rx = s.tr.rx.drop k := by
  unfold resyncDrop
  split
  · simp
  · obtain rfl : k = 0 := by omega
    simp

theorem resyncDrop_frame (k : Nat) (s : State) :
    resyncDrop k s = { s with tr := { s.tr with rx := s.tr.rx.drop k }, cnt := (resyncDrop k s).cnt } := by
  unfold resyncDrop
  split
  · rfl
  · obtain rfl : k = 0 := by omega
    simp

/-- The scan touches the buffer and the counters only. -/
theorem scan_frame (s : State) : ∃ rx cnt, (scan s).1 = { s with tr := { s.tr with rx := rx }, cnt := cnt } := by
  unfold scan
  split <;> exact ⟨_, _, resyncDrop_frame _ s⟩

/-! ### Steps 3 to 5, 42_transport.md R154 to R158 -/

/-- The four ways a POLL on an aligned buffer ends. -/
theorem pollAligned_cases (now : Nat) (s : State) :
    (s.tr.rx.length < headerSize ∧ pollAligned now s = returning (.poll .noFrame) s) ∨
    (headerSize ≤ s.tr.rx.length ∧
      (declaredLength s.tr.rx < headerSize ∨ s.cfg.rxCap < declaredLength s.tr.rx) ∧
      pollAligned now s = returning (.poll .badLength) (raise .badLength 0 (dropFront 1 s))) ∨
    (headerSize ≤ declaredLength s.tr.rx ∧ declaredLength s.tr.rx ≤ s.cfg.rxCap ∧
      s.tr.rx.length < declaredLength s.tr.rx ∧ pollAligned now s = returning (.poll .noFrame) s) ∨
    (headerSize ≤ declaredLength s.tr.rx ∧ declaredLength s.tr.rx ≤ s.cfg.rxCap ∧
      declaredLength s.tr.rx ≤ s.tr.rx.length ∧
      pollAligned now s = returning (.poll .dispatched)
        (dispatchFrame (frameOfBytes (s.tr.rx.take (declaredLength s.tr.rx)))
          (extract now (declaredLength s.tr.rx) s))) := by
  unfold pollAligned
  simp only
  split
  · exact .inl ⟨‹_›, rfl⟩
  · split
    · exact .inr (.inl ⟨by omega, ‹_›, rfl⟩)
    · split
      · exact .inr (.inr (.inl ⟨by omega, by omega, ‹_›, rfl⟩))
      · exact .inr (.inr (.inr ⟨by omega, by omega, by omega, rfl⟩))

/-! ### Wire commands -/

/-- What running any frame's instruction leaves: pending slots, ControlState, the output stream and the counters may change,
and nothing else does (10_state.md R36). -/
theorem finish_frame (req : Frame) (done : State × Reply) :
    finish req done =
      { done.1 with tr := { done.1.tr with outQ := (finish req done).tr.outQ }, cnt := (finish req done).cnt } := by
  rcases finish_cases req done with ⟨buf, -, h⟩ | ⟨why, -, h⟩ <;> rw [h]
  · rfl
  · cases why <;> rfl

end Sys2Proof.Machine
end

