-- ==== Sys2Proof/Tests/Slice0.lean ====
section
/-! SUPPORT. The model's own tests. Expected results are the vectors of 95_test_vectors.md, or written out from the tables of
30_encoding.md; each names its source. The witnesses show that the hypotheses of a statement can be met. -/

namespace Sys2Proof.Tests

set_option Elab.async false

open Sys2Proof.Machine Sys2Proof.Claim

/-- The next state, if there is one. -/
def nextOf : Host.Outcome State Fault Refusal → Option State
  | .next t => some t
  | .fault _ => none
  | .refused _ => none

/-- What a field of the next state is. -/
def after {α : Type} (field : State → α) (i : Instr) (s : State) : Option α := (nextOf (exec i s)).map field

/-- The state after RESET with bytes in the receive buffer and the input. -/
def holding (rx inQ : List Byte) : State := { State.reset with tr := { State.reset.tr with rx := rx, inQ := inQ } }

/-- The state after RESET in an outer mode, with a setpoint of 500.0 and a range of 0.0 to 1000.0. -/
def outerIs (outer : Byte) : State :=
  { State.reset with
    ctrl := { State.reset.ctrl with outer := outer, sp := 0x43FA0000#32 }
    pid := { State.reset.pid with pvMax := 0x447A0000#32 } }

/-! ### Well-formedness: an ill-formed term for each check -/

/-- 30_encoding.md R77: 119 payload bytes make a frame of 129, above RX_CAP. -/
theorem smoke_payload_too_long :
    (Instr.setKp ⟨0#8, 0#8⟩ 0#8 (List.replicate 119 0#8)).wf Config.default = false ∧
      (Instr.setKp ⟨0#8, 0#8⟩ 0#8 (List.replicate 118 0#8)).wf Config.default = true := by decide +kernel

/-- 42_transport.md R158: object 0 has a handler. -/
theorem smoke_noHandler_of_bound_object : (Instr.noHandler 0#8 0#8 0x42#8 0#8 []).wf Config.default = false := by
  decide +kernel

/-- 30_encoding.md R89: 0x13 is a known command id. -/
theorem smoke_unknownCmd_of_known_id : (Instr.unknownCmd ⟨0#8, 0#8⟩ 0x13#8 0#8 []).wf Config.default = false := by
  decide +kernel

/-- 10_state.md R33: a command on an unbound object, or on one past the table, and UNKNOWN_CMD on an object without a handler. -/
theorem smoke_command_of_unbound_object :
    (Instr.setKp ⟨0#8, 1#8⟩ 0#8 []).wf Config.default = false ∧ (Instr.setKp ⟨0#8, 4#8⟩ 0#8 []).wf Config.default = false ∧
      (Instr.unknownCmd ⟨0#8, 1#8⟩ 0x42#8 0#8 []).wf Config.default = false := by decide +kernel

/-- 00_scope.md R6: each bound of a configuration's well-formedness. -/
theorem smoke_config :
    Config.default.wf = true ∧ ({ Config.default with rxCap := 9 } : Config).wf = false ∧
      ({ Config.default with txCap := 9 } : Config).wf = false ∧
      ({ Config.default with rxCap := 65536 } : Config).wf = false ∧
      ({ Config.default with handlers := [] } : Config).wf = false ∧
      ({ Config.default with ticksPerSecond := 0 } : Config).wf = false := by decide +kernel

/-- Two commands with one id, two modes with one code, and number formats without the literals (log 2). -/
theorem smoke_config_codes_and_format :
    ({ Config.default with cmdIds := { CommandIds.default with setKi := 0x03#8 } } : Config).wf = false ∧
      ({ Config.default with modes := { ModeCodes.default with pidAuto := 1#8 } } : Config).wf = false ∧
      ({ Config.default with modes := { ModeCodes.default with outerOff := 3#8 } } : Config).wf = false ∧
      ({ Config.default with modes := { ModeCodes.default with innerBoost := 2#8 } } : Config).wf = false ∧
      ({ Config.default with num := ⟨3, .nearestEven⟩ } : Config).wf = false ∧
      ({ Config.default with num := ⟨28, .nearestEven⟩ } : Config).wf = false := by decide +kernel

/-- 00_scope.md R6: a time of 33 bits is no time of the default TIME_W. -/
theorem smoke_time_too_wide :
    (Instr.poll 4294967296).wf Config.default = false ∧ (Instr.tick 0#32 4294967296).wf Config.default = false ∧
      (Instr.ok 4294967296).wf Config.default = false ∧ (Instr.ok 4294967295).wf Config.default = true := by
  decide +kernel

/-! ### Decoding: words written out from 30_encoding.md R70, R75, R87, R88 -/

/-- 30_encoding.md R70, code 0. -/
theorem test_decode_reset :
    decode Config.default .host [0x00#8] = .instr (.reset) := by decide +kernel

/-- 30_encoding.md R70, code 1, then the bytes. -/
theorem test_decode_rx :
    decode Config.default .host [0x01#8, 0xAA#8, 0xBB#8] = .instr (.rx [0xAA#8, 0xBB#8]) := by decide +kernel

/-- 30_encoding.md R70, code 2, then now, least significant byte first. -/
theorem test_decode_poll :
    decode Config.default .host [0x02#8, 0x78#8, 0x56#8, 0x34#8, 0x12#8] = .instr (.poll 305419896) := by decide +kernel

/-- 30_encoding.md R70, code 3, then pv = 400.0 and now = 1000. -/
theorem test_decode_tick :
    decode Config.default .host [0x03#8, 0x00#8, 0x00#8, 0xC8#8, 0x43#8, 0xE8#8, 0x03#8, 0x00#8, 0x00#8] = .instr (.tick 0x43C80000#32 1000) := by decide +kernel

/-- 30_encoding.md R70, code 4, then now. -/
theorem test_decode_ok :
    decode Config.default .host [0x04#8, 0x0A#8, 0x00#8, 0x00#8, 0x80#8] = .instr (.ok 2147483658) := by decide +kernel

/-- 30_encoding.md R70, code 5. -/
theorem test_decode_readCounters :
    decode Config.default .host [0x05#8] = .instr (.readCounters) := by decide +kernel

/-- 30_encoding.md R70, code 6. -/
theorem test_decode_txDrain :
    decode Config.default .host [0x06#8] = .instr (.txDrain) := by decide +kernel

/-- 95_test_vectors.md P4 step 8. -/
theorem test_decode_readStatus :
    decode Config.default .wire [0xEF#8, 0xBE#8, 0xAD#8, 0xDE#8, 0x0A#8, 0x00#8, 0x06#8, 0x00#8, 0x00#8, 0x00#8] =
      .instr (.readStatus ⟨0x06#8, 0#8⟩ 0x00#8 []) := by decide +kernel

/-- 95_test_vectors.md P5 step 1. -/
theorem test_decode_setSp :
    decode Config.default .wire [0xEF#8, 0xBE#8, 0xAD#8, 0xDE#8, 0x0E#8, 0x00#8, 0x08#8, 0x00#8, 0x01#8, 0x00#8, 0x00#8, 0x00#8, 0xF6#8, 0x42#8] =
      .instr (.setSp ⟨0x08#8, 0#8⟩ 0x00#8 [0x00#8, 0x00#8, 0xF6#8, 0x42#8]) := by decide +kernel

/-- 95_test_vectors.md P4 step 2. -/
theorem test_decode_setCv :
    decode Config.default .wire [0xEF#8, 0xBE#8, 0xAD#8, 0xDE#8, 0x0E#8, 0x00#8, 0x02#8, 0x00#8, 0x02#8, 0x00#8, 0x00#8, 0x00#8, 0x20#8, 0x42#8] =
      .instr (.setCv ⟨0x02#8, 0#8⟩ 0x00#8 [0x00#8, 0x00#8, 0x20#8, 0x42#8]) := by decide +kernel

/-- 30_encoding.md, worked encoding. -/
theorem test_decode_setKp :
    decode Config.default .wire [0xEF#8, 0xBE#8, 0xAD#8, 0xDE#8, 0x0E#8, 0x00#8, 0x01#8, 0x00#8, 0x03#8, 0x00#8, 0x00#8, 0x00#8, 0xC0#8, 0x3F#8] =
      .instr (.setKp ⟨0x01#8, 0#8⟩ 0x00#8 [0x00#8, 0x00#8, 0xC0#8, 0x3F#8]) := by decide +kernel

/-- 95_test_vectors.md P1 step 3. -/
theorem test_decode_setKi :
    decode Config.default .wire [0xEF#8, 0xBE#8, 0xAD#8, 0xDE#8, 0x0E#8, 0x00#8, 0x03#8, 0x00#8, 0x04#8, 0x00#8, 0x00#8, 0x00#8, 0x00#8, 0x3F#8] =
      .instr (.setKi ⟨0x03#8, 0#8⟩ 0x00#8 [0x00#8, 0x00#8, 0x00#8, 0x3F#8]) := by decide +kernel

/-- 95_test_vectors.md P1 step 4. -/
theorem test_decode_setKd :
    decode Config.default .wire [0xEF#8, 0xBE#8, 0xAD#8, 0xDE#8, 0x0E#8, 0x00#8, 0x04#8, 0x00#8, 0x05#8, 0x00#8, 0x00#8, 0x00#8, 0x80#8, 0x3E#8] =
      .instr (.setKd ⟨0x04#8, 0#8⟩ 0x00#8 [0x00#8, 0x00#8, 0x80#8, 0x3E#8]) := by decide +kernel

/-- 30_encoding.md R75, R87. -/
theorem test_decode_setPvMin :
    decode Config.default .wire [0xEF#8, 0xBE#8, 0xAD#8, 0xDE#8, 0x0E#8, 0x00#8, 0x01#8, 0x00#8, 0x06#8, 0x5A#8, 0x00#8, 0x00#8, 0x00#8, 0x00#8] =
      .instr (.setPvMin ⟨0x01#8, 0#8⟩ 0x5A#8 [0x00#8, 0x00#8, 0x00#8, 0x00#8]) := by decide +kernel

/-- 95_test_vectors.md P1 step 1. -/
theorem test_decode_setPvMax :
    decode Config.default .wire [0xEF#8, 0xBE#8, 0xAD#8, 0xDE#8, 0x0E#8, 0x00#8, 0x01#8, 0x00#8, 0x07#8, 0x00#8, 0x00#8, 0x00#8, 0x7A#8, 0x44#8] =
      .instr (.setPvMax ⟨0x01#8, 0#8⟩ 0x00#8 [0x00#8, 0x00#8, 0x7A#8, 0x44#8]) := by decide +kernel

/-- 95_test_vectors.md P5 step 1. -/
theorem test_decode_setMode :
    decode Config.default .wire [0xEF#8, 0xBE#8, 0xAD#8, 0xDE#8, 0x0B#8, 0x00#8, 0x07#8, 0x00#8, 0x08#8, 0x00#8, 0x01#8] =
      .instr (.setMode ⟨0x07#8, 0#8⟩ 0x00#8 [0x01#8]) := by decide +kernel

/-- 95_test_vectors.md P1 step 14. -/
theorem test_decode_readComposite :
    decode Config.default .wire [0xEF#8, 0xBE#8, 0xAD#8, 0xDE#8, 0x0A#8, 0x00#8, 0x07#8, 0x00#8, 0x10#8, 0x00#8] =
      .instr (.readComposite ⟨0x07#8, 0#8⟩ 0x00#8 []) := by decide +kernel

/-- 95_test_vectors.md P1 step 6. -/
theorem test_decode_setOuterMode :
    decode Config.default .wire [0xEF#8, 0xBE#8, 0xAD#8, 0xDE#8, 0x0B#8, 0x00#8, 0x06#8, 0x00#8, 0x11#8, 0x00#8, 0x02#8] =
      .instr (.setOuterMode ⟨0x06#8, 0#8⟩ 0x00#8 [0x02#8]) := by decide +kernel

/-- 95_test_vectors.md P1 step 5. -/
theorem test_decode_setCtrlSp :
    decode Config.default .wire [0xEF#8, 0xBE#8, 0xAD#8, 0xDE#8, 0x0E#8, 0x00#8, 0x05#8, 0x00#8, 0x12#8, 0x00#8, 0x00#8, 0x00#8, 0xFA#8, 0x43#8] =
      .instr (.setCtrlSp ⟨0x05#8, 0#8⟩ 0x00#8 [0x00#8, 0x00#8, 0xFA#8, 0x43#8]) := by decide +kernel

/-- 95_test_vectors.md T-TR-2. -/
theorem test_decode_setInnerMode :
    decode Config.default .wire [0xEF#8, 0xBE#8, 0xAD#8, 0xDE#8, 0x0B#8, 0x00#8, 0x02#8, 0x00#8, 0x13#8, 0x00#8, 0x01#8] =
      .instr (.setInnerMode ⟨0x02#8, 0#8⟩ 0x00#8 [0x01#8]) := by decide +kernel

/-- 95_test_vectors.md T-TR-14. -/
theorem test_decode_noHandler :
    decode Config.default .wire [0xEF#8, 0xBE#8, 0xAD#8, 0xDE#8, 0x0A#8, 0x00#8, 0x05#8, 0xC8#8, 0x00#8, 0x00#8] =
      .instr (.noHandler 0x05#8 0xC8#8 0x00#8 0x00#8 []) := by decide +kernel

/-- 95_test_vectors.md T-CMD-19. -/
theorem test_decode_unknownCmd :
    decode Config.default .wire [0xEF#8, 0xBE#8, 0xAD#8, 0xDE#8, 0x0A#8, 0x00#8, 0x01#8, 0x00#8, 0x42#8, 0x00#8] =
      .instr (.unknownCmd ⟨0x01#8, 0#8⟩ 0x42#8 0x00#8 []) := by decide +kernel

/-- 30_encoding.md R70, R77: a code that is no operation, a short argument, a wrong magic, lengths 9 and 129, and a short frame. -/
theorem test_decode_rejects :
    decodeOp Config.default [0x07#8] = .rejected (.unknownOperation 0x07#8) ∧
      decodeOp Config.default [0x02#8, 0x00#8] = .rejected (.badArguments 0x02#8) ∧ decodeOp Config.default [] = .rejected .emptyRecord ∧
      decodeFrame Config.default [0xEF#8, 0xBE#8, 0xAD#8, 0xDD#8, 0x0A#8, 0x00#8, 0x01#8, 0x00#8, 0x42#8, 0x00#8] = .rejected .badMagic ∧
      decodeFrame Config.default [0xEF#8, 0xBE#8, 0xAD#8, 0xDE#8, 0x09#8, 0x00#8, 0x01#8, 0x00#8, 0x42#8, 0x00#8] = .rejected .badLength ∧
      decodeFrame Config.default [0xEF#8, 0xBE#8, 0xAD#8, 0xDE#8, 0x81#8, 0x00#8, 0x01#8, 0x00#8, 0x42#8, 0x00#8] = .rejected .badLength ∧
      decodeFrame Config.default [0xEF#8, 0xBE#8, 0xAD#8, 0xDE#8, 0x0B#8, 0x00#8, 0x01#8, 0x00#8, 0x42#8, 0x00#8] = .rejected .lengthMismatch := by decide +kernel

/-- 00_scope.md R6: the parameters of a machine with a TIME_W of 12, a COUNTER_W of 8, numbers rounded toward zero, and
other codes. -/
def otherConfig : Config :=
  { Config.default with
    num := ⟨23, .towardZero⟩, timeW := 12, counterW := 8
    cmdIds := { CommandIds.default with setMode := 0x20#8 }
    modes := { ModeCodes.default with outerOff := 9#8, pidOff := 7#8 }
    handlers := [some .controller, none, some .pid] }

/-- The state RESET constructs under those parameters. -/
def otherState : State := State.construct otherConfig

/-- 00_scope.md R6 with 30_encoding.md R70, R89: a time of 12 bits takes two bytes and is at most FFF, and the configured id selects. -/
theorem test_decode_other_config :
    otherConfig.wf = true ∧
      decodeOp otherConfig [0x02#8, 0xFF#8, 0x0F#8] = .instr (.poll 4095) ∧
      decodeOp otherConfig [0x02#8, 0x00#8, 0x10#8] = .rejected (.badArguments 0x02#8) ∧
      decodeOp otherConfig [0x02#8, 0x00#8, 0x00#8, 0x00#8, 0x00#8] = .rejected (.badArguments 0x02#8) ∧
      select otherConfig ⟨1#8, 0#8, 0x20#8, 0#8, [1#8]⟩ = .setMode ⟨1#8, 0#8⟩ 0#8 [1#8] ∧
      select otherConfig ⟨1#8, 0#8, 0x08#8, 0#8, [1#8]⟩ = .unknownCmd ⟨1#8, 0#8⟩ 0x08#8 0#8 [1#8] := by decide +kernel

/-- 10_state.md R33, 43_commands.md R181, R182: object 2 bound to the PID handler takes SET_KP and not SET_OUTER_MODE, and object 3
is past the table. -/
theorem test_other_handler_table :
    select otherConfig ⟨1#8, 2#8, 0x03#8, 0#8, []⟩ = .setKp ⟨1#8, 2#8⟩ 0#8 [] ∧
      select otherConfig ⟨1#8, 2#8, 0x11#8, 0#8, [2#8]⟩ = .unknownCmd ⟨1#8, 2#8⟩ 0x11#8 0#8 [2#8] ∧
      select otherConfig ⟨1#8, 1#8, 0x03#8, 0#8, []⟩ = .noHandler 1#8 1#8 0x03#8 0#8 [] ∧
      select otherConfig ⟨1#8, 3#8, 0x03#8, 0#8, []⟩ = .noHandler 1#8 3#8 0x03#8 0#8 [] ∧
      (Instr.setOuterMode ⟨1#8, 2#8⟩ 0#8 []).wf otherConfig = false := by decide +kernel

/-- The opcode table: bits 15 to 8 of a 16-bit word are the object id, and argument and payload bits are zero. -/
theorem test_table_words :
    decodeTableWord 8 0x03 = some (.tick 0#32 0) ∧ decodeTableWord 8 0x07 = none ∧
      decodeTableWord 16 0x0008 = some (.setMode ⟨0#8, 0#8⟩ 0#8 [0#8]) ∧
      decodeTableWord 16 0x0100 = some (.noHandler 0#8 0x01#8 0x00#8 0#8 []) ∧
      decodeTableWord 16 0x0009 = some (.unknownCmd ⟨0#8, 0#8⟩ 0x09#8 0#8 []) := by decide +kernel

/-- 41_arbiter.md and 43_commands.md R192: the step after placing SET_MODE runs it, and after placing TICK runs that. -/
theorem test_fetch_word_runs :
    (nextOf (step (State.reset.withFetchWord 16 0x0008))).map (fun t => (t.pend.mode, t.result)) =
        some (some 0#8, .poll .dispatched) ∧
      (nextOf (step (State.reset.withFetchWord 8 0x03))).map (·.result) = some (.tick 0#32) := by decide +kernel

/-! ### Numbers: 95_test_vectors.md T-CL, T-PID and T-SC -/

/-- T-CL-1 to T-CL-7. -/
theorem test_clamp :
    clampPercent .binary32 (Val.ofBits .binary32 0x7FC00000#32) = 0x00000000#32 ∧ clampPercent .binary32 (Val.ofBits .binary32 0x80000000#32) = 0x80000000#32 ∧
      clampPercent .binary32 (Val.ofBits .binary32 0x437A0000#32) = 0x42C80000#32 ∧ clampPercent .binary32 (Val.ofBits .binary32 0xC0400000#32) = 0x00000000#32 ∧
      clampPercent .binary32 (Val.ofBits .binary32 0x7F800000#32) = 0x42C80000#32 ∧ clampPercent .binary32 (Val.ofBits .binary32 0xFF800000#32) = 0x00000000#32 ∧
      clampPercent .binary32 (Val.ofBits .binary32 0x422A0000#32) = 0x422A0000#32 := by decide +kernel

/-- T-PID-14 and T-PID-15: dt of 3 and 1 milliseconds. -/
theorem test_elapsed :
    elapsed Config.default 1003 1000 = .num 0x3B449BA6#32 ∧
      elapsed Config.default 1001 1000 = .num 0x3A83126F#32 := by decide +kernel

/-- T-SC-1, T-SC-4, T-SC-7 to T-SC-9. -/
theorem test_scale :
    scale .binary32 (outerIs 0#8).pid 0x43E10000#32 = 0x42340000#32 ∧ scale .binary32 (outerIs 0#8).pid 0x7FC00000#32 = 0x00000000#32 ∧
      scale .binary32 { State.reset.pid with pvMin := 0x43480000#32, pvMax := 0x43960000#32 } 0x43690000#32 = 0x42040000#32 ∧
      scale .binary32 { State.reset.pid with pvMin := 0xFF61B1E6#32, pvMax := 0x7F61B1E6#32 } 0x40A00000#32 = 0x00000000#32 ∧
      scale .binary32 { State.reset.pid with pvMin := 0x42C80000#32, pvMax := 0x42480000#32 } 0x429A0000#32 = 0x429A0000#32 := by decide +kernel

/-- IEEE 754, by hand: 1/3 is 3EAAAAAA.AAA… in binary32, so the directions part there and at −1/3; 1.0 with 10 fraction bits has
exponent field 2^20 − 1. -/
theorem test_directions :
    [Rounding.nearestEven, .towardZero, .towardPositive, .towardNegative].map (fun d =>
        (fdiv ⟨23, d⟩ (toF32 ⟨23, d⟩ 1) (toF32 ⟨23, d⟩ 3), fdiv ⟨23, d⟩ (toF32 ⟨23, d⟩ (-1)) (toF32 ⟨23, d⟩ 3))) =
      [(.num 0x3EAAAAAB#32, .num 0xBEAAAAAB#32), (.num 0x3EAAAAAA#32, .num 0xBEAAAAAA#32),
        (.num 0x3EAAAAAB#32, .num 0xBEAAAAAA#32), (.num 0x3EAAAAAA#32, .num 0xBEAAAAAB#32)] ∧
      toF32 ⟨10, .nearestEven⟩ 1 = .num 0x3FFFFC00#32 := by decide +kernel

/-! ### Instructions: 95_test_vectors.md -/

/-- 10_state.md R31: a counter of 8 bits at 255 wraps to 0. -/
theorem test_counter_wraps :
    after (fun t => t.cnt.noHandler) (.noHandler 4#8 2#8 0#8 0#8 [])
      { otherState with cnt := { Counters.zero with noHandler := 255 } } = some 0 := by decide +kernel

/-- 41_arbiter.md R132, R134: an outer byte that is no configured code, 0 here, becomes the configured code of Off. -/
theorem test_other_modes :
    after (fun t => (t.ctrl.outer, t.pid.mode)) (.tick 0#32 5)
      { otherState with ctrl := { otherState.ctrl with outer := 0#8 } } = some (9#8, 7#8) := by decide +kernel

/-- T-RST-3: a configured range of 50.0 to 50.0 is replaced by the safe default range. -/
theorem test_reset_checks_range :
    after (fun t => (t.pid.pvMin, t.pid.pvMax)) .reset
        { State.reset with cfg := { Config.default with initPvMin := 0x42480000#32, initPvMax := 0x42480000#32 } } =
      some (0x00000000#32, 0x42C80000#32) := by decide +kernel

/-- T-HO-3. -/
theorem test_rx_appends :
    after (fun t => (t.tr.inQ, t.tr.rx)) (.rx [0xCC#8]) (holding [] [0xAA#8, 0xBB#8]) = some ([0xAA#8, 0xBB#8, 0xCC#8], []) := by decide +kernel

/-- T-TR-3. -/
theorem test_poll_resync :
    after (fun t => (t.result, t.tr.rx, t.cnt.resyncDrops, t.cnt.badMagic)) (.poll 1) (holding [] [0x01#8, 0x02#8, 0x03#8, 0x04#8, 0x05#8]) =
      some (.poll .noFrame, [0x03#8, 0x04#8, 0x05#8], 2, 1) := by decide +kernel

/-- T-TR-10. -/
theorem test_poll_overflow :
    after (fun t => (t.result, t.tr.rx, t.cnt.overflow)) (.poll 1) (holding (List.replicate 128 0x55#8) [0x11#8]) =
      some (.poll .noFrame, [0x11#8], 1) := by decide +kernel

/-- T-PID-1: Cv 17.5, Err and err1 10.0, err2 0.0. -/
theorem test_tick_computes :
    after (fun t => (t.result, t.pid.err, t.hist)) (.tick 0x43C80000#32 2000)
        { outerIs 2#8 with
          pid := { (outerIs 2#8).pid with kp := 0x3F800000#32, ki := 0x3F000000#32, kd := 0x3E800000#32, mode := 2#8 }
          hist := { err1 := 0#32, err2 := 0#32, lastTick := 1000 } } =
      some (.tick 0x418C0000#32, 0x41200000#32,
        { err1 := 0x41200000#32, err2 := 0x00000000#32, lastTick := 2000 }) := by decide +kernel

/-- T-PID-6: a NaN gain makes dCv a NaN, and Cv 0.0. -/
theorem test_tick_nan_gain :
    after (fun t => t.result) (.tick 0x43C80000#32 2000)
        { outerIs 2#8 with
          pid := { (outerIs 2#8).pid with kp := 0x7FC00000#32, cv := 0x42480000#32, mode := 2#8 }
          hist := { err1 := 0#32, err2 := 0#32, lastTick := 1000 } } =
      some (.tick 0x00000000#32) := by decide +kernel

/-- T-ARB-1 to T-ARB-10, by pv: 1000, 300, 450, 600, 345, 650, 340, 350, 649, NaN. -/
theorem test_classify :
    [0x447A0000#32, 0x43960000#32, 0x43E10000#32, 0x44160000#32, 0x43AC8000#32, 0x44228000#32, 0x43AA0000#32,
        0x43AF0000#32, 0x44224000#32, 0x7FC00000#32].map (classify .binary32 (outerIs 3#8).ctrl) =
      [.off, .boost, .closedLoop, .closedLoop, .feedForward, .off, .boost, .closedLoop, .closedLoop, .feedForward] := by decide +kernel

/-- T-OK-1 and T-OK-2: before any frame, then at 999, 1000, 3000 and 3001. -/
theorem test_ok_window :
    after (fun t => t.result) (.ok 0) State.reset = some (.ok false) ∧
      [999, 1000, 3000, 3001].map (fun now => after (fun t => t.result) (.ok now)
          { State.reset with tr := { State.reset.tr with received := true, lastFrameTime := 1000 } }) =
        [some (.ok false), some (.ok true), some (.ok true), some (.ok false)] := by decide +kernel

/-- 30_encoding.md R93: the order of the tuple. -/
theorem test_read_counters :
    after (fun t => t.result) .readCounters { State.reset with cnt := ⟨1, 2, 3, 4, 5, 6⟩ } =
      some (.counters 1 2 3 4 5 6) := by decide +kernel

/-- T-HO-4. -/
theorem test_tx_drain :
    after (fun t => (t.result, t.tr.outQ)) .txDrain
        { State.reset with tr := { State.reset.tr with outQ := [0xEF#8, 0xBE#8] } } = some (.bytes [0xEF#8, 0xBE#8], []) := by decide +kernel

/-- T-CMD-1. -/
theorem test_read_status :
    after (fun t => t.tr.outQ) (.readStatus ⟨1#8, 0#8⟩ 0#8 []) State.reset =
      some ([0xEF#8, 0xBE#8, 0xAD#8, 0xDE#8, 0x32#8, 0x00#8, 0x01#8, 0x00#8, 0x00#8, 0x00#8] ++ List.replicate 28 0#8 ++ [0x00#8, 0x00#8, 0xC8#8, 0x42#8] ++ List.replicate 8 0#8) := by decide +kernel

/-- T-CMD-3. -/
theorem test_setSp :
    after (fun t => (t.pend, t.cnt)) (.setSp ⟨1#8, 0#8⟩ 0#8 [0x00#8, 0x00#8, 0xFA#8, 0x43#8]) State.reset =
      some ({ PidPending.empty with sp := some 0x43FA0000#32 }, Counters.zero) := by decide +kernel

/-- T-CMD-6. -/
theorem test_setCv :
    after (fun t => (t.pend, t.cnt)) (.setCv ⟨1#8, 0#8⟩ 0#8 [0x00#8, 0x00#8, 0x20#8, 0x42#8]) State.reset =
      some ({ PidPending.empty with cv := some 0x42200000#32 }, Counters.zero) := by decide +kernel

/-- T-CMD-5. -/
theorem test_setKp :
    after (fun t => (t.pend, t.cnt)) (.setKp ⟨1#8, 0#8⟩ 0#8 [0x00#8, 0x00#8, 0xC0#8, 0x3F#8]) State.reset =
      some ({ PidPending.empty with kp := some 0x3FC00000#32 }, Counters.zero) := by decide +kernel

/-- T-CMD-7. -/
theorem test_setKi :
    after (fun t => (t.pend, t.cnt)) (.setKi ⟨1#8, 0#8⟩ 0#8 [0x00#8, 0x00#8, 0x00#8, 0x3F#8]) State.reset =
      some ({ PidPending.empty with ki := some 0x3F000000#32 }, Counters.zero) := by decide +kernel

/-- T-CMD-8. -/
theorem test_setKd :
    after (fun t => (t.pend, t.cnt)) (.setKd ⟨1#8, 0#8⟩ 0#8 [0x00#8, 0x00#8, 0x80#8, 0x3E#8]) State.reset =
      some ({ PidPending.empty with kd := some 0x3E800000#32 }, Counters.zero) := by decide +kernel

/-- T-CMD-9. -/
theorem test_setPvMin :
    after (fun t => (t.pend, t.cnt)) (.setPvMin ⟨1#8, 0#8⟩ 0#8 [0x00#8, 0x00#8, 0x00#8, 0x00#8]) State.reset =
      some ({ PidPending.empty with pvMin := some 0x00000000#32 }, Counters.zero) := by decide +kernel

/-- T-CMD-10. -/
theorem test_setPvMax :
    after (fun t => (t.pend, t.cnt)) (.setPvMax ⟨1#8, 0#8⟩ 0#8 [0x00#8, 0x00#8, 0x7A#8, 0x44#8]) State.reset =
      some ({ PidPending.empty with pvMax := some 0x447A0000#32 }, Counters.zero) := by decide +kernel

/-- T-TR-15: 3 payload bytes, flags 5A. -/
theorem test_setKp_short :
    after (fun t => (t.pend, t.cnt.handlerFalse, t.tr.outQ)) (.setKp ⟨7#8, 0#8⟩ 0x5A#8 [0x00#8, 0x00#8, 0x00#8]) State.reset =
      some (PidPending.empty, 1, [0xEF#8, 0xBE#8, 0xAD#8, 0xDE#8, 0x0A#8, 0x00#8, 0x07#8, 0x00#8, 0x03#8, 0x5A#8]) := by decide +kernel

/-- T-CMD-13 and T-CMD-12: byte 09 is staged, and two bytes fail. -/
theorem test_setMode_raw :
    after (fun t => t.pend.mode) (.setMode ⟨1#8, 0#8⟩ 0#8 [0x09#8]) State.reset = some (some 0x09#8) ∧
      after (fun t => (t.pend.mode, t.cnt.handlerFalse)) (.setMode ⟨1#8, 0#8⟩ 0#8 [0x02#8, 0x00#8]) State.reset = some (none, 1) := by decide +kernel

/-- T-CMD-18: the inner byte of SET_INNER_MODE is shown. -/
theorem test_read_composite :
    after (fun t => (t.tr.outQ.length, t.tr.outQ.take 14)) (.readComposite ⟨1#8, 0#8⟩ 0#8 [])
        { State.reset with ctrl := { State.reset.ctrl with inner := 1#8 } } =
      some (58, [0xEF#8, 0xBE#8, 0xAD#8, 0xDE#8, 0x3A#8, 0x00#8, 0x01#8, 0x00#8, 0x10#8, 0x00#8, 0x00#8, 0x01#8, 0x00#8, 0x00#8]) := by decide +kernel

/-- T-CMD-15 and T-CMD-16. -/
theorem test_setOuterMode :
    after (fun t => t.ctrl.outer) (.setOuterMode ⟨1#8, 0#8⟩ 0#8 [0x03#8]) State.reset = some 3#8 ∧
      after (fun t => (t.ctrl.outer, t.cnt.handlerFalse)) (.setOuterMode ⟨1#8, 0#8⟩ 0#8 []) State.reset = some (0#8, 1) := by decide +kernel

/-- T-CMD-17. -/
theorem test_setCtrlSp :
    after (fun t => t.ctrl.sp) (.setCtrlSp ⟨1#8, 0#8⟩ 0#8 [0x00#8, 0x00#8, 0xFA#8, 0x43#8]) State.reset = some 0x43FA0000#32 := by decide +kernel

/-- T-TR-2. -/
theorem test_setInnerMode :
    after (fun t => t.ctrl.inner) (.setInnerMode ⟨2#8, 0#8⟩ 0#8 [0x01#8]) State.reset = some 1#8 := by decide +kernel

/-- T-TR-13. -/
theorem test_noHandler :
    after (fun t => (t.cnt.noHandler, t.cnt.handlerFalse, t.tr.outQ)) (.noHandler 4#8 2#8 0#8 0#8 []) State.reset =
      some (1, 0, [0xEF#8, 0xBE#8, 0xAD#8, 0xDE#8, 0x0A#8, 0x00#8, 0x04#8, 0x02#8, 0x00#8, 0x00#8]) := by decide +kernel

/-- T-CMD-19. -/
theorem test_unknownCmd :
    after (fun t => (t.cnt.noHandler, t.cnt.handlerFalse, t.tr.outQ)) (.unknownCmd ⟨1#8, 0#8⟩ 0x42#8 0#8 []) State.reset =
      some (0, 1, [0xEF#8, 0xBE#8, 0xAD#8, 0xDE#8, 0x0A#8, 0x00#8, 0x01#8, 0x00#8, 0x42#8, 0x00#8]) := by decide +kernel

/-! ### Witnesses: the hypotheses of each statement, met together -/

/-- A block before RESET. -/
def unborn : State := { State.reset with live := false }

/-- OperatorAuto with the PID in Auto and a prior tick at 1000. -/
def autoRunning : State :=
  { outerIs 2#8 with
    pid := { (outerIs 2#8).pid with mode := 2#8 }
    hist := { err1 := 0#32, err2 := 0#32, lastTick := 1000 } }

/-- A SET_CTRL_SP frame, 14 bytes. -/
def sampleFrame : Frame := ⟨8#8, 0x00#8, 0x12#8, 0#8, [0x00#8, 0x00#8, 0x7A#8, 0x43#8]⟩

/-- At the longest payload and the last known id. -/
theorem witness_DecodeEncodeAgree :
    Config.default.wf = true ∧ (Instr.setKp ⟨1#8, 0#8⟩ 2#8 (List.replicate 118 0#8)).wf Config.default = true ∧
      (Instr.noHandler 1#8 255#8 0#8 0#8 []).wf Config.default = true ∧
      (Instr.unknownCmd ⟨1#8, 0#8⟩ 0x14#8 0#8 []).wf Config.default = true ∧
      (Instr.tick 0xFFFFFFFF#32 4294967295).wf Config.default = true ∧
      otherConfig.wf = true ∧ (Instr.poll 4095).wf otherConfig = true := by decide +kernel

/-- An unbound object, one past the table, an object of each handler, and the ids next to the known ones. -/
theorem witness_KeySelectsItsRow :
    otherConfig.wf = true ∧ otherConfig.handlers[BitVec.toNat (1#8 : Byte)]? = some none ∧
      otherConfig.handlerTableSize ≤ BitVec.toNat (3#8 : Byte) ∧
      otherConfig.handlers[BitVec.toNat (0#8 : Byte)]? = some (some .controller) ∧
      otherConfig.handlers[BitVec.toNat (2#8 : Byte)]? = some (some .pid) ∧
      [0x09#8, 0x0F#8, 0x14#8, 0xFF#8].all (fun cmd =>
        !otherConfig.cmdIds.pid.contains cmd && !otherConfig.cmdIds.controller.contains cmd) = true ∧
      otherConfig.cmdIds.pid.contains 0x11#8 = false := by decide +kernel

theorem witness_StepRunsTheDecodedOperation :
    (∃ (s : State) (record : List Byte) (rest : List (List Byte)) (i : Instr), s.ops = record :: rest ∧ decode s.cfg .host record = .instr i) ∧
      (∃ (s : State) (record : List Byte) (rest : List (List Byte)) (why : DecodeError), s.ops = record :: rest ∧ decode s.cfg .host record = .rejected why) ∧
      (∃ s : State, s.ops = []) :=
  ⟨⟨{ State.reset with ops := [[0x06#8], [0x00#8]] }, [0x06#8], [[0x00#8]], .txDrain, rfl, by decide +kernel⟩,
    ⟨{ State.reset with ops := [[0x07#8]] }, [0x07#8], [], .unknownOperation 0x07#8, rfl, by decide +kernel⟩,
    ⟨State.reset, rfl⟩⟩

/-- The first unknown selector. -/
theorem witness_UnknownSelectorIsRefused :
    ({ State.reset with ops := [[0x07#8]] } : State).ops = [0x07#8 :: []] ∧ 6 < BitVec.toNat (0x07#8 : Byte) := by
  decide +kernel

theorem witness_BeforeResetOnlyResetRuns : unborn.live = false ∧ Instr.poll 0 ≠ .reset := by decide +kernel

theorem witness_ReadyBlockNeverStops :
    ({ State.reset with ops := [[0x02#8, 0#8, 0#8, 0#8, 0#8], [0x00#8]] } : State).Ready :=
  ⟨rfl, by
    intro record h
    simp only [List.mem_cons, List.not_mem_nil, or_false] at h
    rcases h with rfl | rfl
    · exact ⟨.poll 0, by decide +kernel⟩
    · exact ⟨.reset, by decide +kernel⟩⟩

theorem witness_ConfigurationIsStatic :
    ∃ t, step { State.reset with ops := [[0x06#8]] } = .next t ∧ State.reset.live = true := ⟨_, rfl, rfl⟩

/-- One write of each group by an operation that may write it, and a TICK that finds a stored byte that is no outer mode. -/
theorem witness_AccessMatrixHolds :
    (Instr.tick 0x41C80000#32 5).space = .host ∧ (Instr.poll 5).space = .host ∧
      after (fun t => decide (t.pid ≠ State.reset.pid)) (.tick 0x41C80000#32 5) State.reset = some true ∧
      after (fun t => decide (t.cnt ≠ Counters.zero)) (.poll 5) (holding [] (List.replicate 5 1#8)) = some true ∧
      after (fun t => decide (t.tr.inQ ≠ [])) (.rx [1#8]) State.reset = some true ∧
      after (fun t => t.ctrl.outer) (.tick 0x41C80000#32 5) (outerIs 4#8) = some 0#8 := by decide +kernel

theorem witness_ResetMeetsTheInvariant : Config.sound Config.default = true := by decide +kernel

/-- The reset state with an operation waiting meets the invariant and steps. -/
theorem witness_StepKeepsTheInvariant :
    ∃ s t : State, s.Inv ∧ step s = .next t :=
  ⟨{ State.reset with ops := [[0x06#8]] }, _,
    { config := by decide +kernel
      rxBounded := by decide +kernel
      cvInRange := by decide +kernel
      rangeValid := by decide +kernel
      modeLegal := by decide +kernel
      freshOutsideAuto := fun _ => rfl
      offIsZero := fun _ => rfl
      tuning := ⟨rfl, rfl, rfl, rfl⟩
      neverReceived := fun _ => rfl
      timesFit := by decide +kernel
      countersFit := by decide +kernel }, rfl⟩

/-- The one hypothesis of RxOnlyAppends, OkReportsLiveness, ReadCountersReportsAllSix, TxDrainReturnsAndEmpties,
ReadCommandsAnswerTheRecord, UnroutedFramesOnlyCount, FlagsAndSequenceAreOnlyEchoed, PollCompletesWithinItsGroups, TickCompletesWithinItsGroups and
TickAppliesStagedGainsAndLimits. -/
theorem witness_live : State.reset.live = true := rfl

/-- Both lengths next to the right one. -/
theorem witness_PidFloatCommandsStage :
    State.reset.live = true ∧ ([1#8, 2#8, 3#8] : List Byte).length ≠ 4 ∧
      ([1#8, 2#8, 3#8, 4#8, 5#8] : List Byte).length ≠ 4 := by decide +kernel

theorem witness_ModeAndControllerCommandsWrite :
    State.reset.live = true ∧ ([] : List Byte).length ≠ 1 ∧ ([1#8, 2#8] : List Byte).length ≠ 1 ∧
      ([1#8, 2#8, 3#8] : List Byte).length ≠ 4 := by decide +kernel

/-- Object 4 is past the table and object 1 is unbound, and with another table object 2 has the PID handler; ids 09, 0F and 14
are the edges of the unlisted ones, and 11 is one to the PID handler; SET_SP, SET_PVMAX, SET_CTRL_SP and the three mode
commands have a wrong length. -/
theorem witness_IllegalSelectionsAnswerEmpty :
    let k := State.reset.cfg.cmdIds
    State.reset.live = true ∧ State.reset.cfg.wf = true ∧ State.reset.cfg.handlerTableSize ≤ (0x04#8 : Byte).toNat ∧
      State.reset.cfg.handlers[(0x01#8 : Byte).toNat]? = some none ∧
      State.reset.cfg.handlers[(0x00#8 : Byte).toNat]? = some (some .controller) ∧
      otherState.cfg.handlers[(0x02#8 : Byte).toNat]? = some (some .pid) ∧
      [0x09#8, 0x0F#8, 0x14#8].all (fun cmd => !k.pid.contains cmd && !k.controller.contains cmd) = true ∧
      otherState.cfg.cmdIds.pid.contains 0x11#8 = false ∧
      [k.setSp, k.setCv, k.setKp, k.setKi, k.setKd, k.setPvMin, k.setPvMax, k.setCtrlSp].contains 0x01#8 = true ∧
      [k.setSp, k.setCv, k.setKp, k.setKi, k.setKd, k.setPvMin, k.setPvMax, k.setCtrlSp].contains 0x12#8 = true ∧
      [k.setMode, k.setOuterMode, k.setInnerMode].contains 0x13#8 = true ∧
      ([1#8, 2#8, 3#8] : List Byte).length ≠ 4 ∧ ([] : List Byte).length ≠ 1 := by decide +kernel

theorem witness_WireCommandsEchoTheHeader :
    State.reset.live = true ∧ State.reset.cfg.wf = true ∧ (Instr.setKp ⟨1#8, 0#8⟩ 2#8 []).space = .wire := by decide +kernel

theorem witness_WireCommandsLeaveTheRest :
    (Instr.setKp ⟨1#8, 0#8⟩ 2#8 []).space = .wire ∧ ∃ t, exec (.setKp ⟨1#8, 0#8⟩ 2#8 []) State.reset = .next t := ⟨rfl, _, rfl⟩

/-- At an empty buffer, and at a full one. -/
theorem witness_DrainKeepsTheNewestBytes :
    1 ≤ State.reset.cfg.rxCap ∧ State.reset.tr.rx.length ≤ State.reset.cfg.rxCap ∧
      State.reset.tr.rx ++ State.reset.tr.inQ = [] ∧
      (holding (List.replicate 128 0x55#8) [0x11#8]).tr.rx.length ≤ State.reset.cfg.rxCap ∧
      (holding (List.replicate 128 0x55#8) [0x11#8]).tr.rx ++ (holding (List.replicate 128 0x55#8) [0x11#8]).tr.inQ ≠ [] := by
  decide +kernel

/-- A header of 9 bytes behind junk, a frame short of one byte at the largest declared length with the magic in front, and no
magic at all. -/
theorem witness_IncompleteFrameConsumesNothing :
    let header := [0xEF#8, 0xBE#8, 0xAD#8, 0xDE#8]
    let junk := holding [] (0x11#8 :: header ++ [0x0A#8, 0#8, 0#8, 0#8, 0#8])
    let long := header ++ 0x80#8 :: List.replicate 122 0#8
    junk.live = true ∧ (scan (drain junk)).2 = true ∧ (scan (drain junk)).1.tr.rx.length = 9 ∧
      (holding long []).tr.inQ = [] ∧ (holding long []).tr.rx.take 4 = le32 State.reset.cfg.magic ∧
      declaredLength long = State.reset.cfg.rxCap ∧ long.length = 127 ∧ declaredLength long = 128 ∧
      (scan (drain (holding [] [0x11#8]))).2 = false := by
  decide +kernel

/-- Declared lengths 9 and 129, next to the legal ones. -/
theorem witness_BadLengthDropsOneByte :
    let at9 := holding [0x11#8] [0xEF#8, 0xBE#8, 0xAD#8, 0xDE#8, 0x09#8, 0#8, 0#8, 0#8, 0#8, 0#8]
    let at129 := holding [] [0xEF#8, 0xBE#8, 0xAD#8, 0xDE#8, 0x81#8, 0#8, 0#8, 0#8, 0#8, 0#8]
    let at10 := holding [] [0xEF#8, 0xBE#8, 0xAD#8, 0xDE#8, 0x0A#8, 0#8, 0#8, 0#8, 0#8, 0#8]
    at9.live = true ∧ (scan (drain at9)).2 = true ∧ (scan (drain at9)).1.tr.rx.length = 10 ∧
      declaredLength (scan (drain at9)).1.tr.rx = 9 ∧ (scan (drain at129)).2 = true ∧
      declaredLength (scan (drain at129)).1.tr.rx = 129 ∧ declaredLength (scan (drain at10)).1.tr.rx = 10 ∧
      (scan (drain at10)).2 = true ∧ State.reset.cfg.rxCap = 128 := by decide +kernel

/-- Half a frame in the buffer, the rest and a byte of the next in the input; and a full buffer that overflows, then junk, a frame
and junk. -/
theorem witness_PollRunsTheDecodedFrame :
    let i := Instr.setCtrlSp ⟨8#8, 0#8⟩ 0#8 [0x00#8, 0x00#8, 0x7A#8, 0x43#8]
    let s := holding ((encode Config.default i).take 7) ((encode Config.default i).drop 7 ++ [0xAA#8])
    s.live = true ∧ s.cfg.wf = true ∧ i.space = .wire ∧ i.wf s.cfg = true ∧
      s.tr.rx ++ s.tr.inQ = encode s.cfg i ++ [0xAA#8] ∧ (s.tr.rx ++ s.tr.inQ).length ≤ s.cfg.rxCap ∧
      (let full := holding (List.replicate 128 0x55#8) ([1#8, 2#8, 3#8] ++ encode Config.default i ++ [4#8, 5#8])
       full.live = true ∧ full.cfg.wf = true ∧ (scan (drain full)).2 = true ∧
        (scan (drain full)).1.tr.rx = encode full.cfg i ++ [4#8, 5#8] ∧ (scan (drain full)).1.cnt.overflow = 1 ∧
        (scan (drain full)).1.cnt.resyncDrops = 3) := by decide +kernel

/-- A POLL that dispatches, and one that does not. -/
theorem witness_OneResponsePerDispatchedFrame :
    State.reset.cfg.wf = true ∧
      after (fun t => t.result) (.poll 1) (holding [] (frameBytes Config.default sampleFrame)) =
        some (.poll .dispatched) ∧
      after (fun t => t.result) (.poll 1) State.reset = some (.poll .noFrame) := by decide +kernel

/-- T-TR-17 in two pieces: junk 01 02 03, the frame, junk 04 05 06 07. -/
theorem witness_ResyncExtractsTheFrameOnce :
    let s := State.reset
    let frame := frameBytes s.cfg sampleFrame
    let junk1 : List Byte := [1#8, 2#8, 3#8]
    let junk2 : List Byte := [4#8, 5#8, 6#8, 7#8]
    let pieces : List (List Byte × Nat) := [(junk1 ++ frame.take 5, 1), (frame.drop 5 ++ junk2, 2)]
    s.cfg.wf = true ∧ s.tr.rx = [] ∧ s.tr.inQ = [] ∧ payloadFits s.cfg sampleFrame.payload = true ∧
      (∀ k < junk1.length, ¬ magicAt s.cfg (junk1 ++ frame) k) ∧ (∀ k, ¬ magicAt s.cfg junk2 k) ∧
      (pieces.map Prod.fst).flatten = junk1 ++ frame ++ junk2 ∧
      (∀ piece ∈ pieces, piece.1.length + frame.length ≤ s.cfg.rxCap) := by
  refine ⟨by decide +kernel, rfl, rfl, by decide +kernel, ?_, ?_, by decide +kernel, by decide +kernel⟩
  · unfold magicAt
    decide +kernel
  · intro k h
    unfold magicAt at h
    match k with
    | 0 => revert h; decide +kernel
    | k + 1 =>
      have := h.length_le
      simp [le32] at this
      omega

theorem witness_TickOffCutsTheOutput : (outerIs 0#8).live = true ∧ (outerIs 0#8).ctrl.outer = 0#8 := ⟨rfl, rfl⟩

/-- The first invalid outer mode, and with other codes the default one. -/
theorem witness_InvalidOuterModeFallsBackToOff :
    (outerIs 4#8).ctrl.outer ∉ (outerIs 4#8).cfg.modes.outer ∧ (0#8 : Byte) ∉ otherConfig.modes.outer := by decide +kernel

theorem witness_TickOperatorManualKeepsCv :
    (outerIs 1#8).live = true ∧ (outerIs 1#8).cfg.codesDistinct = true ∧
      (outerIs 1#8).ctrl.outer = (outerIs 1#8).cfg.modes.outerOperatorManual := by decide +kernel

/-- No prior tick, and a Δt of exactly 0. -/
theorem witness_TickAutoSeedsOrHolds :
    (outerIs 2#8).live = true ∧ (outerIs 2#8).cfg.codesDistinct = true ∧
      (outerIs 2#8).ctrl.outer = (outerIs 2#8).cfg.modes.outerOperatorAuto ∧ (outerIs 2#8).hist.lastTick = 0 ∧
      autoRunning.ctrl.outer = autoRunning.cfg.modes.outerOperatorAuto ∧
      fle (deltaT autoRunning.cfg 1000 autoRunning.hist.lastTick) (Val.ofBits .binary32 0x00000000#32) = true := by
  decide +kernel

/-- A Δt of 1 tick. -/
theorem witness_TickAutoComputesTheVelocityForm :
    autoRunning.live = true ∧ autoRunning.cfg.codesDistinct = true ∧
      autoRunning.ctrl.outer = autoRunning.cfg.modes.outerOperatorAuto ∧ autoRunning.hist.lastTick ≠ 0 ∧
      fle (deltaT autoRunning.cfg 1001 autoRunning.hist.lastTick) (Val.ofBits .binary32 0x00000000#32) = false := by
  decide +kernel

/-- A TICK that computes. -/
theorem witness_ComputeShiftsTheHistory :
    autoRunning.cfg.codesDistinct = true ∧
      after (fun t => t.pid.mode) (.tick 0x43C80000#32 1001) autoRunning = some autoRunning.cfg.modes.pidAuto ∧
      autoRunning.hist.lastTick ≠ 0 ∧
      fle (deltaT autoRunning.cfg 1001 autoRunning.hist.lastTick) (Val.ofBits .binary32 0x00000000#32) = false := by
  decide +kernel

theorem witness_OffAndOperatorAutoDriveThePid :
    State.reset.cfg.codesDistinct = true ∧
      (outerIs 0#8).live = true ∧ (outerIs 0#8).ctrl.outer = State.reset.cfg.modes.outerOff ∧ (outerIs 2#8).live = true ∧
      (outerIs 2#8).ctrl.outer = State.reset.cfg.modes.outerOperatorAuto := by decide +kernel

/-- A pv for each of the four clauses: 650, 340, 350 and 345. -/
theorem witness_TickProgrammedAutoPicksTheStrategy :
    (outerIs 3#8).live = true ∧ (outerIs 3#8).cfg.codesDistinct = true ∧
      (outerIs 3#8).ctrl.outer = (outerIs 3#8).cfg.modes.outerProgrammedAuto ∧
      [0x44228000#32, 0x43AA0000#32, 0x43AF0000#32, 0x43AC8000#32].map (fun pv =>
          let err := fsub .binary32 (Val.ofBits .binary32 (outerIs 3#8).ctrl.sp) (Val.ofBits .binary32 pv)
          (fle err (fneg (Val.ofBits .binary32 (outerIs 3#8).ctrl.deadband)),
            fle (Val.ofBits .binary32 (outerIs 3#8).ctrl.boostErrThreshold) err,
            fle (fabs err) (Val.ofBits .binary32 (outerIs 3#8).ctrl.deadband))) =
        [(true, false, true), (false, true, false), (false, false, true), (false, false, false)] := by
  decide +kernel

theorem witness_ClosedLoopExactlyInsideBothExtremes : isNaN .binary32 State.reset.ctrl.boostErrThreshold = false := by
  decide +kernel

theorem witness_NanReadingSelectsFeedForward :
    (outerIs 3#8).live = true ∧ (outerIs 3#8).cfg.codesDistinct = true ∧
      (outerIs 3#8).ctrl.outer = (outerIs 3#8).cfg.modes.outerProgrammedAuto ∧ isNaN .binary32 0x7FC00000#32 = true := by
  decide +kernel

/-- The first invalid PID mode, and with other codes the default one of Off. -/
theorem witness_InvalidModeForcesOff :
    (3#8 : Byte) ∉ State.reset.cfg.modes.pid ∧ (0#8 : Byte) ∉ otherState.cfg.modes.pid := by decide +kernel

theorem witness_CountersSteerNothing :
    Instr.poll 0 ≠ .readCounters ∧ ∃ t, exec (.poll 0) State.reset = .next t := ⟨by decide +kernel, _, rfl⟩

/-- OperatorAuto chosen, the PID still Off. -/
theorem witness_EntryIntoAutoOnlySeeds :
    (outerIs 2#8).Inv ∧ (outerIs 2#8).live = true ∧ (outerIs 2#8).ctrl.outer = (outerIs 2#8).cfg.modes.outerOperatorAuto ∧
      (outerIs 2#8).pid.mode ≠ (outerIs 2#8).cfg.modes.pidAuto :=
  ⟨{ config := by decide +kernel
     rxBounded := by decide +kernel
     cvInRange := by decide +kernel
     rangeValid := by decide +kernel
     modeLegal := by decide +kernel
     freshOutsideAuto := fun _ => rfl
     offIsZero := fun _ => rfl
     tuning := ⟨rfl, rfl, rfl, rfl⟩
     neverReceived := fun _ => rfl
     timesFit := by decide +kernel
     countersFit := by decide +kernel }, rfl, rfl, by decide +kernel⟩

theorem witness_ScaleIsAPercentage :
    NumFormat.binary32.wf = true ∧ validRange .binary32 State.reset.pid.pvMin State.reset.pid.pvMax = true ∧
      isNaN .binary32 0x7FC00000#32 = true := by decide +kernel

/-- At the largest times and time base the statement covers. -/
theorem witness_ElapsedIsPositiveExactlyWhenTimeAdvanced :
    let c := { Config.default with ticksPerSecond := 4294967295 }
    c.num.wf = true ∧ c.num.fracBits ≤ 23 ∧ 4294967295 < 2 ^ 32 ∧ 1 ≤ c.ticksPerSecond ∧ c.ticksPerSecond < 2 ^ 32 := by
  decide +kernel

/-- A NaN, a number below, one above, and the two ends. -/
theorem witness_ClampFollowsItsRule :
    isNaN .binary32 0x7FC00000#32 = true ∧ flt (Val.ofBits .binary32 0xC0400000#32) (Val.ofBits .binary32 f32Zero) = true ∧
      flt (Val.ofBits .binary32 0x437A0000#32) (Val.ofBits .binary32 f32Zero) = false ∧
      flt (Val.ofBits .binary32 (f32Hundred .binary32)) (Val.ofBits .binary32 0x437A0000#32) = true ∧
      [f32Zero, f32Hundred .binary32].all (fun x => !isNaN .binary32 x && !flt (Val.ofBits .binary32 x) (Val.ofBits .binary32 f32Zero) &&
        !flt (Val.ofBits .binary32 (f32Hundred .binary32)) (Val.ofBits .binary32 x)) = true := by decide +kernel

/-- The formats RoundingIsCorrect, SpecialOperandsFollowIeee and ComparisonsFollowTheOrder speak of, at both ends. -/
theorem witness_formats : [4, 23, 27].all (fun f => NumFormat.wf ⟨f, .nearestEven⟩) = true := by decide +kernel

/-- The largest finite number and the least subnormal number are finite. -/
theorem witness_SumsAndProductsRoundTheExactValue :
    NumFormat.binary32.wf = true ∧ finite .binary32 0x7F7FFFFF#32 ∧ finite .binary32 0x00000001#32 := by
  unfold finite
  decide +kernel

/-- A value of 0 is that of a zero pattern, and 1.0 is another. -/
theorem value_zero_and_one : value .binary32 0x80000000#32 = 0 ∧ value .binary32 0x3F800000#32 ≠ 0 := by
  have hz : significand .binary32 0x80000000#32 = 0 := by decide +kernel
  have hs : signBit 0x3F800000#32 = false := by decide +kernel
  have hm : significand .binary32 0x3F800000#32 = 2 ^ 23 := by decide +kernel
  simp [value, sgn, hs, hm, hz, zpow_ne_zero]

/-- The divisor 1.0 is not zero. -/
theorem witness_QuotientRoundsTheExactValue :
    NumFormat.binary32.wf = true ∧ finite .binary32 0x3F800000#32 ∧ value .binary32 0x3F800000#32 ≠ 0 :=
  ⟨by decide +kernel, by unfold finite; decide +kernel, value_zero_and_one.2⟩

/-- A NaN, both infinities, a finite number, and a zero of each kind of operand. -/
theorem witness_SpecialOperandsFollowIeee :
    isNaN .binary32 0x7FC00000#32 = true ∧ inf .binary32 true = 0xFF800000#32 ∧ inf .binary32 false = 0x7F800000#32 ∧
      finite .binary32 0x3F800000#32 ∧ value .binary32 0x3F800000#32 ≠ 0 ∧ finite .binary32 0x80000000#32 ∧
      value .binary32 0x80000000#32 = 0 :=
  ⟨by decide +kernel, by decide +kernel, by decide +kernel, by unfold finite; decide +kernel, value_zero_and_one.2,
    by unfold finite; decide +kernel, value_zero_and_one.1⟩

/-- A finite result in each direction, the least value that gives the infinity to nearest, and one below it. -/
theorem witness_RoundingIsCorrect :
    finite .binary32 (roundPack .binary32 false 3 (-150)) ∧
      magnitude (roundPack .binary32 false (2 ^ 25 - 1) 103) = infMagnitude .binary32 ∧
      finite .binary32 (roundPack .binary32 false (2 ^ 25 - 2) 103) ∧
      finite ⟨23, .towardZero⟩ (roundPack ⟨23, .towardZero⟩ false 1 200) ∧
      magnitude (roundPack ⟨23, .towardPositive⟩ false (2 ^ 25 - 1) 103) = infMagnitude .binary32 ∧
      finite ⟨23, .towardNegative⟩ (roundPack ⟨23, .towardNegative⟩ false 1 200) := by
  unfold finite
  decide +kernel

end Sys2Proof.Tests
end

section
/-! PROOFS. The value of a pattern by its place in the order, and what the sign operations and infinities are in those terms
(00_scope.md R8). -/

namespace Sys2Proof.Machine

open Sys2Proof.Claim

theorem wf_iff_fracBits (n : NumFormat) : n.wf = true ↔ 4 ≤ n.fracBits ∧ n.fracBits ≤ 27 := by
  simp [NumFormat.wf]

theorem two_dvd_two_pow_fracBits {n : NumFormat} (hn : n.wf = true) : 2 ∣ 2 ^ n.fracBits := by
  have hf := ((wf_iff_fracBits n).1 hn).1
  exact dvd_pow_self 2 (by omega)

/-! ### The value of a magnitude -/

/-- The significand a magnitude has by its fields, at every natural number. -/
def sigAt (n : NumFormat) (k : Nat) : Nat :=
  if k / 2 ^ n.fracBits = 0 then k % 2 ^ n.fracBits else k % 2 ^ n.fracBits + 2 ^ n.fracBits

/-- The weight of the last bit a magnitude has by its fields. -/
def weightAt (n : NumFormat) (k : Nat) : Int := ((k / 2 ^ n.fracBits - 1 : Nat) : Int) + leastWeight n

/-- The value a magnitude has by its fields. It goes on past the infinity, whose place has the value 2 ^ (emax + 1). -/
def magValue (n : NumFormat) (k : Nat) : ℚ := (sigAt n k : ℚ) * 2 ^ weightAt n k

theorem expField_eq {n : NumFormat} (hn : n.wf = true) (b : F32) : expField n b = magnitude b / 2 ^ n.fracBits := by
  have hf := ((wf_iff_fracBits n).1 hn).2
  rw [expField, magnitude, ← Nat.mod_mul_right_div_self, NumFormat.expBits, pow_mul_pow_sub _ (by omega)]

theorem fracField_eq {n : NumFormat} (hn : n.wf = true) (b : F32) : fracField n b = magnitude b % 2 ^ n.fracBits := by
  have hf := ((wf_iff_fracBits n).1 hn).2
  rw [fracField, magnitude, Nat.mod_mod_of_dvd _ (pow_dvd_pow 2 (by omega))]

/-- The value of a pattern is its sign and the value of its magnitude. -/
theorem value_eq {n : NumFormat} (hn : n.wf = true) (b : F32) :
    value n b = sgn (signBit b) * magValue n (magnitude b) := by
  simp only [value, significand, lastBit, expField_eq hn, fracField_eq hn, magValue, sigAt, weightAt, mul_assoc]

/-- A significand of the format's width, shifted up by `s`, or any smaller one at the least weight, is the value of the
magnitude whose fields it fills. It may be the next power of two, which carries into the exponent. -/
theorem magValue_place (n : NumFormat) {i s : Nat} (hi : i ≤ 2 ^ (n.fracBits + 1)) (hs : s = 0 ∨ 2 ^ n.fracBits ≤ i) :
    magValue n (i + s * 2 ^ n.fracBits) = i * 2 ^ ((s : Int) + leastWeight n) := by
  have hp : 0 < 2 ^ n.fracBits := Nat.two_pow_pos _
  rw [pow_succ] at hi
  rw [magValue, sigAt, weightAt, Nat.add_mul_div_right _ _ hp, Nat.add_mul_mod_self_right]
  rcases lt_or_ge i (2 ^ n.fracBits) with hlt | hge
  · obtain rfl : s = 0 := hs.resolve_right (by omega)
    simp [Nat.div_eq_of_lt hlt, Nat.mod_eq_of_lt hlt]
  rcases lt_or_eq_of_le hi with hlt | rfl
  · have hd : i / 2 ^ n.fracBits = 1 := Nat.div_eq_of_lt_le (by omega) (by omega)
    have hm : i % 2 ^ n.fracBits + 2 ^ n.fracBits = i := by
      rw [Nat.mod_eq_sub_mod hge, Nat.mod_eq_of_lt (by omega)]; omega
    simp [hd, hm]
  · have hw : ((2 + s - 1 : Nat) : Int) + leastWeight n = 1 + ((s : Int) + leastWeight n) := by omega
    rw [Nat.mul_div_cancel_left _ hp, Nat.mul_mod_right, if_neg (by omega), hw, zpow_add₀ two_ne_zero]
    push_cast
    ring

/-- Every magnitude is the place of its significand at the weight of its last bit. -/
theorem exists_place (n : NumFormat) (k : Nat) :
    ∃ i s, i < 2 ^ (n.fracBits + 1) ∧ (s = 0 ∨ 2 ^ n.fracBits ≤ i) ∧ k = i + s * 2 ^ n.fracBits ∧
      weightAt n k = (s : Int) + leastWeight n := by
  have hk := Nat.div_add_mod' k (2 ^ n.fracBits)
  have hr := Nat.mod_lt k (Nat.two_pow_pos n.fracBits)
  refine ⟨sigAt n k, k / 2 ^ n.fracBits - 1, ?_⟩
  rw [sigAt, weightAt, pow_succ]
  cases h : k / 2 ^ n.fracBits with
  | zero => rw [h] at hk; simp; omega
  | succ j => rw [h, Nat.succ_mul] at hk; simp; omega

theorem magValue_succ (n : NumFormat) (k : Nat) : magValue n (k + 1) = magValue n k + 2 ^ weightAt n k := by
  obtain ⟨i, s, hi, hs, rfl, hw⟩ := exists_place n k
  rw [hw, Nat.add_right_comm, magValue_place n hi (hs.imp_right Nat.le_succ_of_le), magValue_place n hi.le hs]
  push_cast
  ring

theorem magValue_strictMono (n : NumFormat) : StrictMono (magValue n) :=
  strictMono_nat_of_lt_succ fun k => by rw [magValue_succ]; exact lt_add_of_pos_right _ (by positivity)

@[simp] theorem magValue_zero (n : NumFormat) : magValue n 0 = 0 := by simp [magValue, sigAt]

theorem magValue_nonneg (n : NumFormat) (k : Nat) : 0 ≤ magValue n k := by unfold magValue; positivity

/-! ### The value at a place in the order -/

/-- The value at a place in the order of the reals: the value of its magnitude, with its sign. -/
def keyValue (n : NumFormat) (k : Int) : ℚ := k.sign * magValue n k.natAbs

theorem keyValue_neg (n : NumFormat) (k : Int) : keyValue n (-k) = -keyValue n k := by simp [keyValue]

theorem keyValue_natCast (n : NumFormat) (k : Nat) : keyValue n k = magValue n k := by
  rcases Nat.eq_zero_or_pos k with rfl | hk
  · simp [keyValue]
  · simp [keyValue, Int.sign_eq_one_of_pos (Int.natCast_pos.2 hk)]

theorem keyValue_strictMono (n : NumFormat) : StrictMono (keyValue n) := by
  refine strictMono_of_odd_strictMonoOn_nonneg (keyValue_neg n) fun a ha b hb hab => ?_
  lift a to ℕ using ha
  lift b to ℕ using hb
  rw [keyValue_natCast, keyValue_natCast]
  exact magValue_strictMono n (by exact_mod_cast hab)

/-- The value of a pattern is the value at its place in the order. -/
theorem value_eq_keyValue {n : NumFormat} (hn : n.wf = true) (b : F32) : value n b = keyValue n (orderKey b) := by
  rw [value_eq hn, orderKey]
  cases signBit b <;> simp [sgn, keyValue_neg, keyValue_natCast]

/-! ### Sign operations -/

theorem signBit_eq_msb (b : F32) : signBit b = b.msb := by rw [signBit, BitVec.msb_eq_decide]

theorem magnitude_eq_setWidth (b : F32) : magnitude b = (b.setWidth 31).toNat := by simp [magnitude]

@[simp] theorem signBit_negBits (b : F32) : signBit (negBits b) = !signBit b := by
  rw [signBit_eq_msb, signBit_eq_msb, negBits, BitVec.msb_xor, show (0x80000000#32).msb = true by decide,
    Bool.xor_true]

@[simp] theorem magnitude_negBits (b : F32) : magnitude (negBits b) = magnitude b := by
  simp [magnitude_eq_setWidth, negBits, BitVec.setWidth_xor]

@[simp] theorem signBit_absBits (b : F32) : signBit (absBits b) = false := by
  rw [signBit_eq_msb, absBits, BitVec.msb_and, show (0x7FFFFFFF#32).msb = false by decide, Bool.and_false]

@[simp] theorem magnitude_absBits (b : F32) : magnitude (absBits b) = magnitude b := by
  rw [magnitude_eq_setWidth, absBits, BitVec.setWidth_and,
    show (0x7FFFFFFF#32).setWidth 31 = BitVec.allOnes 31 by decide, BitVec.and_allOnes, magnitude_eq_setWidth]

@[simp] theorem sgn_not (neg : Bool) : sgn (!neg) = -sgn neg := by cases neg <;> simp [sgn]

theorem value_negBits {n : NumFormat} (hn : n.wf = true) (b : F32) : value n (negBits b) = -value n b := by
  simp [value_eq hn]

theorem abs_sgn_mul (neg : Bool) {q : ℚ} (hq : 0 ≤ q) : |sgn neg * q| = q := by
  cases neg <;> simp [sgn, hq]

theorem abs_value {n : NumFormat} (hn : n.wf = true) (b : F32) : |value n b| = magValue n (magnitude b) := by
  rw [value_eq hn, abs_sgn_mul _ (magValue_nonneg n _)]

theorem value_absBits {n : NumFormat} (hn : n.wf = true) (b : F32) : value n (absBits b) = |value n b| := by
  rw [abs_value hn, value_eq hn, signBit_absBits, magnitude_absBits, sgn, if_neg Bool.false_ne_true, one_mul]

theorem value_eq_zero_iff {n : NumFormat} (hn : n.wf = true) (b : F32) : value n b = 0 ↔ magnitude b = 0 := by
  rw [← abs_eq_zero, abs_value hn, ← magValue_zero n, (magValue_strictMono n).injective.eq_iff]

/-! ### Infinities -/

theorem isInf_of_finite {n : NumFormat} {b : F32} (h : finite n b) : isInf n b = false := by
  unfold finite at h
  simp [isInf, h.ne]

@[simp] theorem signBit_inf (n : NumFormat) (neg : Bool) : signBit (inf n neg) = neg :=
  signBit_withSign neg (infMagnitude_lt n)

@[simp] theorem magnitude_inf (n : NumFormat) (neg : Bool) : magnitude (inf n neg) = infMagnitude n :=
  magnitude_withSign neg (infMagnitude_lt n)

@[simp] theorem isInf_inf (n : NumFormat) (neg : Bool) : isInf n (inf n neg) = true := by simp [isInf]

theorem infMagnitude_eq {n : NumFormat} (hn : n.wf = true) :
    infMagnitude n = (2 ^ n.expBits - 1) * 2 ^ n.fracBits := by
  have hf := ((wf_iff_fracBits n).1 hn).2
  rw [infMagnitude, Nat.sub_mul, one_mul, NumFormat.expBits, ← pow_add, Nat.sub_add_cancel (by omega)]

theorem orderKey_inf (n : NumFormat) (neg : Bool) :
    orderKey (inf n neg) = if neg then -(infMagnitude n : Int) else infMagnitude n := by
  rw [orderKey, signBit_inf, magnitude_inf]

theorem orderKey_bounds_of_finite {n : NumFormat} {b : F32} (h : finite n b) :
    -(infMagnitude n : Int) < orderKey b ∧ orderKey b < infMagnitude n := by
  unfold finite at h
  unfold orderKey
  split <;> omega

theorem infMagnitude_pos {n : NumFormat} (hn : n.wf = true) : 0 < infMagnitude n := by
  have hf := ((wf_iff_fracBits n).1 hn).2
  exact Nat.sub_pos_of_lt (Nat.pow_lt_pow_right (by decide) (by omega))

end Sys2Proof.Machine
end

section
/-! PROOFS. The rounding of 00_scope.md R8 gives the correctly rounded number: for a size, then for a signed value. A size is
rounded to a place (`RoundsToPlace`), and the place with the sign is what `Claim.Rounded` says (`RoundsToPlace.rounded`). -/

namespace Sys2Proof.Machine

open Sys2Proof.Claim

/-! ### The rounding decision, over the rationals -/

/-- Whether a size `q`, from `lo` on and below `hi`, goes up to `hi`: `roundsUp` over the rationals. `k` is the place of `lo`,
and its parity decides a tie. -/
def GoesUp (rd : Rounding) (neg : Bool) (k : Nat) (lo hi q : ℚ) : Prop :=
  match rd with
  | .nearestEven => lo + hi < 2 * q ∨ (2 * q = lo + hi ∧ k % 2 = 1)
  | .towardZero => False
  | .towardPositive => neg = false ∧ lo < q
  | .towardNegative => neg = true ∧ lo < q

/-- What goes up was above the lower neighbour. -/
theorem lo_lt_of_goesUp {rd : Rounding} {neg : Bool} {k : Nat} {lo hi q : ℚ} (h : lo < hi) :
    GoesUp rd neg k lo hi q → lo < q := by
  cases rd <;> simp only [GoesUp]
  · rintro (h' | ⟨h', -⟩) <;> linarith
  · exact False.elim
  · exact And.right
  · exact And.right

/-- `roundsUp` decides `GoesUp` for the size `i + r / d` at a weight. -/
theorem roundsUp_iff (rd : Rounding) (neg : Bool) (i r : Nat) {d : Nat} {u : ℚ} (hd : 0 < d) (hu : 0 < u) :
    roundsUp rd neg i r d = true ↔ GoesUp rd neg i (i * u) ((i + 1) * u) ((i + r / d) * u) := by
  have hd' : (0 : ℚ) < d := by exact_mod_cast hd
  have hlo : (i : ℚ) * u < (i + r / d) * u ↔ r ≠ 0 := by
    rw [mul_lt_mul_iff_left₀ hu, lt_add_iff_pos_right, div_pos_iff_of_pos_right hd', Nat.cast_pos, Nat.pos_iff_ne_zero]
  have hmid : 2 * ((i + r / d) * u) - (i * u + (i + 1) * u) = (2 * r - d) * (u / d) := by field_simp; ring
  have hud : 0 < u / d := div_pos hu hd'
  have hlt : (i : ℚ) * u + (i + 1) * u < 2 * ((i + r / d) * u) ↔ d < 2 * r := by
    rw [← sub_pos, hmid, mul_pos_iff_of_pos_right hud, sub_pos]; exact_mod_cast Iff.rfl
  have heq : 2 * ((i + r / d) * u) = (i : ℚ) * u + (i + 1) * u ↔ 2 * r = d := by
    rw [← sub_eq_zero, hmid, mul_eq_zero_iff_right hud.ne', sub_eq_zero]; exact_mod_cast Iff.rfl
  cases rd <;> simp [roundsUp, GoesUp, hlo, hlt, heq]

/-- The significand at a weight, rounded: an integer part, and one more where `roundsUp` says so for what is left. -/
theorem roundTo_eq (rd : Rounding) (neg : Bool) (m : Nat) (e w : Int) :
    ∃ i r d : Nat, r < d ∧ (m : ℚ) * 2 ^ e = (i + r / d) * 2 ^ w ∧
      roundTo rd neg m e w = if roundsUp rd neg i r d then i + 1 else i := by
  unfold roundTo
  split
  · next h =>
    refine ⟨m * 2 ^ (e - w).toNat, 0, 1, one_pos, ?_, by cases rd <;> simp [roundsUp]⟩
    have he : e = ((e - w).toNat : Int) + w := by omega
    conv_lhs => rw [he, zpow_add₀ two_ne_zero, zpow_natCast]
    push_cast; ring
  · next h =>
    refine ⟨m / 2 ^ (w - e).toNat, m % 2 ^ (w - e).toNat, 2 ^ (w - e).toNat, Nat.mod_lt _ (Nat.two_pow_pos _), ?_, rfl⟩
    have hw : w = ((w - e).toNat : Int) + e := by omega
    have hm : (m : ℚ) = (m / 2 ^ (w - e).toNat : Nat) * 2 ^ (w - e).toNat + (m % 2 ^ (w - e).toNat : Nat) := by
      exact_mod_cast (Nat.div_add_mod' m _).symm
    conv_rhs => rw [hw, zpow_add₀ two_ne_zero, zpow_natCast, ← hw]
    conv_lhs => rw [hm]
    field_simp
    push_cast; ring

/-- Two sizes are alike at a weight when every multiple of 2 to it is below, at or above both of them. -/
def Alike (g : Int) (x y : ℚ) : Prop :=
  ∀ j : Int, ((j : ℚ) * 2 ^ g < x ↔ (j : ℚ) * 2 ^ g < y) ∧ (x < (j : ℚ) * 2 ^ g ↔ y < (j : ℚ) * 2 ^ g)

theorem Alike.refl (g : Int) (x : ℚ) : Alike g x x := fun _ => ⟨Iff.rfl, Iff.rfl⟩

/-- The multiples at a greater weight are among those at a lesser one. -/
theorem Alike.mono {g w : Int} (hgw : g ≤ w) {x y : ℚ} (h : Alike g x y) : Alike w x y := by
  intro j
  have hj : (j : ℚ) * 2 ^ w = ((j * 2 ^ (w - g).toNat : Int) : ℚ) * 2 ^ g := by
    have hw : w = ((w - g).toNat : Int) + g := by omega
    conv_lhs => rw [hw, zpow_add₀ two_ne_zero, zpow_natCast]
    push_cast; ring
  rw [hj]
  exact h _

theorem Alike.goesUp_iff {w : Int} {x y : ℚ} (h : Alike (w - 1) x y) (rd : Rounding) (neg : Bool) (i k : Nat)
    (hk : k % 2 = i % 2) :
    GoesUp rd neg i (i * 2 ^ w) ((i + 1) * 2 ^ w) x ↔ GoesUp rd neg k (i * 2 ^ w) ((i + 1) * 2 ^ w) y := by
  have hw : (2 : ℚ) ^ w = 2 * 2 ^ (w - 1) := by rw [← zpow_one_add₀ two_ne_zero]; congr 1; omega
  have hlo : (i : ℚ) * 2 ^ w = ((2 * i : Int) : ℚ) * 2 ^ (w - 1) := by rw [hw]; push_cast; ring
  have hmid : (i : ℚ) * 2 ^ w + (i + 1) * 2 ^ w = 2 * (((2 * i + 1 : Int) : ℚ) * 2 ^ (w - 1)) := by
    rw [hw]; push_cast; ring
  obtain ⟨h1, -⟩ := h (2 * i)
  obtain ⟨h2, h3⟩ := h (2 * i + 1)
  have heq : x = ((2 * i + 1 : Int) : ℚ) * 2 ^ (w - 1) ↔ y = ((2 * i + 1 : Int) : ℚ) * 2 ^ (w - 1) := by
    rw [eq_iff_le_not_lt, eq_iff_le_not_lt, ← not_lt, ← not_lt, h2, h3]
  cases rd <;> simp only [GoesUp]
  · rw [hmid, mul_lt_mul_iff_right₀ two_pos, mul_lt_mul_iff_right₀ two_pos, mul_right_inj' two_ne_zero,
      mul_right_inj' two_ne_zero, h2, heq, hk]
  · rw [hlo, h1]
  · rw [hlo, h1]

/-- The largest magnitude a rounded result has. -/
def topPlace (n : NumFormat) (neg : Bool) : Nat :=
  if staysFinite n.rounding neg then infMagnitude n - 1 else infMagnitude n

/-- `p` is the place of the size `q` rounded: the magnitude `k` of the format below `q`, or the next one where the direction goes
up, and never past the top. -/
def RoundsToPlace (n : NumFormat) (neg : Bool) (q : ℚ) (p : Nat) : Prop :=
  ∃ k, magValue n k ≤ q ∧ q < magValue n (k + 1) ∧
    ((GoesUp n.rounding neg k (magValue n k) (magValue n (k + 1)) q ∧ p = min (k + 1) (topPlace n neg)) ∨
      (¬GoesUp n.rounding neg k (magValue n k) (magValue n (k + 1)) q ∧ p = min k (topPlace n neg)))

theorem roundsToPlace_zero (n : NumFormat) (neg : Bool) : RoundsToPlace n neg 0 0 := by
  have h : (0 : ℚ) < magValue n (0 + 1) := by rw [← magValue_zero n]; exact magValue_strictMono n (Nat.lt_succ_self 0)
  refine ⟨0, (magValue_zero n).le, h, .inr ⟨?_, by simp⟩⟩
  rw [magValue_zero]
  cases n.rounding <;> simp [GoesUp, h.le, h.ne]

/-- A size that is `i` and a fraction at the weight of its rounding has a significand that fits the format. -/
theorem roundWeight_bounds {n : NumFormat} {m : Nat} {e : Int} (hm : m ≠ 0) {i : Nat}
    (hlo : (i : ℚ) * 2 ^ roundWeight n m e ≤ m * 2 ^ e) (hhi : (m : ℚ) * 2 ^ e < (i + 1) * 2 ^ roundWeight n m e) :
    i < 2 ^ (n.fracBits + 1) ∧ (roundWeight n m e = leastWeight n ∨ 2 ^ n.fracBits ≤ i) := by
  have pow_split (a : Nat) : (2 : ℚ) ^ ((a : Int) + e) = 2 ^ a * 2 ^ e := by
    rw [zpow_add₀ two_ne_zero, zpow_natCast]
  set w := roundWeight n m e with hw
  have he : (0 : ℚ) < 2 ^ e := by positivity
  constructor
  · have hlt : (m : ℚ) * 2 ^ e < 2 ^ (n.fracBits + 1) * 2 ^ w := calc
      (m : ℚ) * 2 ^ e < 2 ^ (m.log2 + 1) * 2 ^ e := by gcongr; exact_mod_cast Nat.lt_log2_self
      _ = 2 ^ ((m.log2 + 1 : Nat) + e) := (pow_split _).symm
      _ ≤ 2 ^ ((n.fracBits + 1 : Nat) + w) := by
        apply zpow_le_zpow_right₀ one_le_two
        have : (m.log2 : Int) + e - n.fracBits ≤ w := le_max_left _ _
        omega
      _ = 2 ^ (n.fracBits + 1) * 2 ^ w := by rw [zpow_add₀ two_ne_zero, zpow_natCast]
    exact_mod_cast lt_of_mul_lt_mul_right (hlo.trans_lt hlt) (by positivity)
  · refine or_iff_not_imp_left.2 fun hne => ?_
    have hwe : (n.fracBits : Int) + w = m.log2 + e := by unfold roundWeight at hw; omega
    have hle : (2 : ℚ) ^ n.fracBits * 2 ^ w ≤ m * 2 ^ e := calc
      (2 : ℚ) ^ n.fracBits * 2 ^ w = 2 ^ (m.log2 + e) := by rw [← hwe, zpow_add₀ two_ne_zero, zpow_natCast]
      _ = 2 ^ m.log2 * 2 ^ e := pow_split _
      _ ≤ m * 2 ^ e := by gcongr; exact_mod_cast Nat.log2_self_le hm
    have := lt_of_mul_lt_mul_right (hle.trans_lt hhi) (by positivity)
    exact Nat.lt_succ_iff.1 (by exact_mod_cast this)

/-- The last bit of a place is that of its significand. -/
theorem place_mod_two {n : NumFormat} (hn : n.wf = true) (i s : Nat) : (i + s * 2 ^ n.fracBits) % 2 = i % 2 := by
  obtain ⟨t, ht⟩ := two_dvd_two_pow_fracBits hn
  rw [ht, Nat.mul_left_comm, Nat.add_mul_mod_self_left]

/-- `roundMagnitude` gives the place of every size that is alike to its argument one bit below the weight of the rounding. -/
theorem roundMagnitude_roundsToPlace {n : NumFormat} (hn : n.wf = true) (neg : Bool) {m : Nat} {e : Int} (hm : m ≠ 0) {q : ℚ}
    (hq : Alike (roundWeight n m e - 1) (m * 2 ^ e) q) : RoundsToPlace n neg q (roundMagnitude n neg m e) := by
  obtain ⟨i, r, d, hrd, hval, hround⟩ := roundTo_eq n.rounding neg m e (roundWeight n m e)
  unfold roundMagnitude
  simp only [hround]
  have hwl : leastWeight n ≤ roundWeight n m e := le_max_right _ _
  have hu : (0 : ℚ) < 2 ^ roundWeight n m e := by positivity
  have hd : (0 : ℚ) < d := by exact_mod_cast Nat.zero_lt_of_lt hrd
  have hlo : (i : ℚ) * 2 ^ roundWeight n m e ≤ m * 2 ^ e := by
    rw [hval]; gcongr; exact le_add_of_nonneg_right (by positivity)
  have hhi : (m : ℚ) * 2 ^ e < (i + 1) * 2 ^ roundWeight n m e := by
    rw [hval]; gcongr; rw [div_lt_one hd]; exact_mod_cast hrd
  obtain ⟨hi, hsub⟩ := roundWeight_bounds hm hlo hhi
  set w := roundWeight n m e
  set s := (w - leastWeight n).toNat
  have hsw : (s : Int) + leastWeight n = w := by omega
  have hs : s = 0 ∨ 2 ^ n.fracBits ≤ i := hsub.imp_left (by omega)
  have hk : magValue n (i + s * 2 ^ n.fracBits) = i * 2 ^ w := by rw [magValue_place n hi.le hs, hsw]
  have hk1 : magValue n (i + s * 2 ^ n.fracBits + 1) = (i + 1) * 2 ^ w := by
    rw [Nat.add_right_comm, magValue_place n hi (hs.imp_right Nat.le_succ_of_le), hsw, Nat.cast_succ]
  have hup := hq.goesUp_iff n.rounding neg i _ (place_mod_two hn i s)
  rw [hval, ← roundsUp_iff _ _ _ _ (Nat.zero_lt_of_lt hrd) hu] at hup
  have hqi := hq.mono (w := w) (by omega) i
  have hqi1 := hq.mono (w := w) (by omega) (i + 1)
  push_cast at hqi hqi1
  refine ⟨i + s * 2 ^ n.fracBits, ?_, ?_, ?_⟩
  · rw [hk, ← not_lt, ← hqi.2, not_lt]; exact hlo
  · rw [hk1, ← hqi1.2]; exact hhi
  · rw [hk, hk1, ← hup]
    cases roundsUp n.rounding neg i r d
    · exact .inr ⟨by simp, rfl⟩
    · exact .inl ⟨rfl, by simp [topPlace, Nat.add_right_comm]⟩

/-! ### Overflow, in terms of the places of the infinity and of the largest finite number -/

/-- The exponent field has at least 16 codes. -/
theorem two_pow_expBits {n : NumFormat} (hn : n.wf = true) :
    2 ^ n.expBits = 2 * 2 ^ (n.expBits - 1) ∧ 8 ≤ 2 ^ (n.expBits - 1) := by
  obtain ⟨-, hf⟩ := (wf_iff_fracBits n).1 hn
  have he : 4 ≤ n.expBits := by unfold NumFormat.expBits; omega
  exact ⟨by rw [← pow_succ', Nat.sub_add_cancel (by omega)],
    show 2 ^ 3 ≤ _ from Nat.pow_le_pow_right two_pos (by omega)⟩

/-- The place of the infinity: the power of two that follows the largest significand, at the largest exponent. -/
theorem infMagnitude_eq_place {n : NumFormat} (hn : n.wf = true) :
    infMagnitude n = 2 ^ (n.fracBits + 1) + (2 ^ n.expBits - 3) * 2 ^ n.fracBits := by
  have ⟨he, h8⟩ := two_pow_expBits hn
  rw [infMagnitude_eq hn, pow_succ, Nat.mul_comm _ 2, ← Nat.add_mul]
  congr 1
  omega

/-- The weight of the last bit at the largest exponent. -/
theorem largest_weight {n : NumFormat} (hn : n.wf = true) :
    ((2 ^ n.expBits - 3 : Nat) : Int) + leastWeight n = 2 ^ (n.expBits - 1) - 1 - n.fracBits := by
  have ⟨he, h8⟩ := two_pow_expBits hn
  rw [leastWeight, he]
  push_cast [Nat.cast_sub (show 3 ≤ 2 * 2 ^ (n.expBits - 1) by omega)]
  ring

theorem magValue_inf {n : NumFormat} (hn : n.wf = true) :
    magValue n (infMagnitude n) = 2 ^ (2 ^ (n.expBits - 1) : Int) := by
  rw [infMagnitude_eq_place hn, magValue_place n le_rfl (.inr (Nat.pow_le_pow_right two_pos (Nat.le_succ _))),
    largest_weight hn, Nat.cast_pow, Nat.cast_ofNat, ← zpow_natCast, ← zpow_add₀ two_ne_zero]
  congr 1
  push_cast
  ring

theorem magValue_largest {n : NumFormat} (hn : n.wf = true) :
    magValue n (infMagnitude n - 1) =
      2 ^ (2 ^ (n.expBits - 1) : Int) - 2 ^ ((2 ^ (n.expBits - 1) : Int) - 1 - n.fracBits) := by
  have hp : 0 < 2 ^ n.fracBits := Nat.two_pow_pos _
  rw [infMagnitude_eq_place hn, pow_succ, Nat.sub_add_comm (by omega),
    magValue_place n (by rw [pow_succ]; omega) (.inr (by omega)), largest_weight hn, ← magValue_inf hn,
    infMagnitude_eq_place hn, magValue_place n le_rfl (.inr (by rw [pow_succ]; omega)), largest_weight hn,
    Nat.cast_sub (by omega), pow_succ]
  ring

/-- A size overflows exactly when it is past the largest finite number and the direction does not keep it finite, to nearest when
it is not below halfway to the place of the infinity. -/
theorem overflows_iff {n : NumFormat} (hn : n.wf = true) (neg : Bool) (size : ℚ) :
    overflows n neg size ↔ match n.rounding with
      | .nearestEven => magValue n (infMagnitude n - 1) + magValue n (infMagnitude n) ≤ 2 * size
      | .towardZero => False
      | .towardPositive => neg = false ∧ magValue n (infMagnitude n - 1) < size
      | .towardNegative => neg = true ∧ magValue n (infMagnitude n - 1) < size := by
  rw [magValue_largest hn, magValue_inf hn]
  unfold overflows
  cases n.rounding
  case nearestEven =>
    have hhalf : (2 : ℚ) ^ ((2 ^ (n.expBits - 1) : Int) - 1 - n.fracBits) =
        2 * 2 ^ ((2 ^ (n.expBits - 1) : Int) - 2 - n.fracBits) := by
      rw [← zpow_one_add₀ two_ne_zero]; congr 1; ring
    simp only
    rw [hhalf]
    constructor <;> intro h <;> linarith
  all_goals rfl

theorem even_infMagnitude {n : NumFormat} (hn : n.wf = true) : infMagnitude n % 2 = 0 := by
  rw [infMagnitude_eq hn]
  exact Nat.mod_eq_zero_of_dvd (Dvd.dvd.mul_left (two_dvd_two_pow_fracBits hn) _)

/-- Overflow in terms of the place `k` below a size: past the largest finite number, or at it and going up. -/
theorem overflows_iff_place {n : NumFormat} (hn : n.wf = true) (neg : Bool) {q : ℚ} {k top : Nat}
    (htop : infMagnitude n = top + 1) (hlo : magValue n k ≤ q) (hhi : q < magValue n (k + 1)) :
    overflows n neg q ↔ staysFinite n.rounding neg = false ∧
      (top < k ∨ (k = top ∧ GoesUp n.rounding neg k (magValue n k) (magValue n (k + 1)) q)) := by
  have mono := magValue_strictMono n
  have hstep := mono (Nat.lt_succ_self top)
  rw [overflows_iff hn, htop, Nat.add_sub_cancel]
  rcases lt_trichotomy k top with hk | rfl | hk
  · have hq : q < magValue n top := hhi.trans_le (mono.monotone hk)
    cases n.rounding <;> simp [hk.ne, hk.not_gt, hq.not_gt]
    linarith
  · have hodd : k % 2 = 1 := by have := even_infMagnitude hn; omega
    cases n.rounding <;> simp [GoesUp, staysFinite, hodd, le_iff_lt_or_eq, eq_comm (a := 2 * q)]
  · have hq : magValue n (top + 1) ≤ q := (mono.monotone hk).trans hlo
    cases n.rounding <;> simp [staysFinite, hk, hstep.trans_le hq]
    linarith

/-- A rounded size is the infinity exactly when it overflows. -/
theorem RoundsToPlace.eq_inf_iff {n : NumFormat} (hn : n.wf = true) {neg : Bool} {q : ℚ} {p : Nat}
    (h : RoundsToPlace n neg q p) : p = infMagnitude n ↔ overflows n neg q := by
  obtain ⟨k, hlo, hhi, hp⟩ := h
  obtain ⟨top, htop⟩ : ∃ top, infMagnitude n = top + 1 := ⟨_, (Nat.sub_add_cancel (infMagnitude_pos hn)).symm⟩
  rw [overflows_iff_place hn neg htop hlo hhi, htop]
  rw [topPlace, htop, Nat.add_sub_cancel] at hp
  cases hs : staysFinite n.rounding neg <;> rw [hs] at hp
  · obtain ⟨hup, rfl⟩ | ⟨hup, rfl⟩ := hp
    · simp [hup]; omega
    · simp [hup]
  · rcases hp with ⟨-, rfl⟩ | ⟨-, rfl⟩ <;> (simp; omega)

theorem RoundsToPlace.le_inf {n : NumFormat} {neg : Bool} {q : ℚ} {p : Nat} (h : RoundsToPlace n neg q p) :
    p ≤ infMagnitude n := by
  obtain ⟨k, -, -, hp⟩ := h
  have htop : topPlace n neg ≤ infMagnitude n := by unfold topPlace; split <;> omega
  rcases hp with ⟨-, rfl⟩ | ⟨-, rfl⟩ <;> exact (min_le_right _ _).trans htop

theorem RoundsToPlace.nonneg {n : NumFormat} {neg : Bool} {q : ℚ} {p : Nat} (h : RoundsToPlace n neg q p) : 0 ≤ q := by
  obtain ⟨k, hlo, -⟩ := h
  exact (magValue_nonneg n k).trans hlo

/-- No place of a finite number lies between a rounded size and the size. -/
theorem RoundsToPlace.not_between {n : NumFormat} {neg : Bool} {q : ℚ} {p : Nat} (h : RoundsToPlace n neg q p)
    {c : Int} (hc : c < infMagnitude n) :
    ¬(magValue n p < keyValue n c ∧ keyValue n c ≤ q) ∧ ¬(q ≤ keyValue n c ∧ keyValue n c < magValue n p) := by
  obtain ⟨k, hlo, hhi, hp⟩ := h
  have mono := keyValue_strictMono n
  have htop : infMagnitude n ≤ topPlace n neg + 1 := by unfold topPlace; split <;> omega
  have hup := lo_lt_of_goesUp (rd := n.rounding) (neg := neg) (k := k) (q := q) (magValue_strictMono n (Nat.lt_succ_self k))
  simp only [← keyValue_natCast] at hlo hhi hp hup ⊢
  rw [mono.lt_iff_lt, mono.lt_iff_lt]
  constructor
  · rintro ⟨hpc, hcq⟩
    have hck : c < (k + 1 : Nat) := mono.lt_iff_lt.1 (hcq.trans_lt hhi)
    omega
  · rintro ⟨hqc, hcp⟩
    have hkc : (k : Int) ≤ c := mono.le_iff_le.1 (hlo.trans hqc)
    rcases hp with ⟨hgoes, rfl⟩ | ⟨-, rfl⟩
    · obtain rfl : c = k := by omega
      exact (hup hgoes).not_ge hqc
    · omega

/-- To nearest, a rounded size that is finite is as near as any number of the format, and has an even last bit in a tie. -/
theorem RoundsToPlace.nearest {n : NumFormat} {neg : Bool} {q : ℚ} {p : Nat} (h : RoundsToPlace n neg q p)
    (hrd : n.rounding = .nearestEven) (hfin : p < infMagnitude n) (c : Int) :
    |magValue n p - q| ≤ |keyValue n c - q| ∧
      (keyValue n c ≠ magValue n p → |magValue n p - q| = |keyValue n c - q| → p % 2 = 0) := by
  obtain ⟨k, hlo, hhi, hp⟩ := h
  have mono := keyValue_strictMono n
  rw [topPlace, hrd, staysFinite, if_neg Bool.false_ne_true] at hp
  have hside : (keyValue n c ≤ magValue n k ∧ |keyValue n c - q| = q - keyValue n c) ∨
      (magValue n (k + 1) ≤ keyValue n c ∧ |keyValue n c - q| = keyValue n c - q) := by
    rw [← keyValue_natCast, ← keyValue_natCast] at *
    rcases le_or_gt c k with hc | hc
    · have hle := mono.monotone hc
      exact .inl ⟨hle, by rw [abs_sub_comm, abs_of_nonneg (by linarith)]⟩
    · have hle := mono.monotone (show ((k + 1 : Nat) : Int) ≤ c by omega)
      exact .inr ⟨hle, abs_of_nonneg (by linarith)⟩
  rcases hp with ⟨hup, hp⟩ | ⟨hup, hp⟩
  · obtain rfl : p = k + 1 := by omega
    rw [abs_of_nonneg (by linarith : 0 ≤ magValue n (k + 1) - q)]
    rcases hup with hup | ⟨htie, hodd⟩
    · rcases hside with ⟨hc, habs⟩ | ⟨hc, habs⟩ <;> rw [habs]
      · exact ⟨by linarith, fun _ heq => by linarith⟩
      · exact ⟨by linarith, fun hne heq => absurd (by linarith) hne⟩
    · refine ⟨?_, fun _ _ => by omega⟩
      rcases hside with ⟨hc, habs⟩ | ⟨hc, habs⟩ <;> rw [habs] <;> linarith
  · obtain rfl : p = k := by omega
    simp only [GoesUp, not_or, not_lt, not_and] at hup
    obtain ⟨hmid, heven⟩ := hup
    rw [abs_of_nonpos (by linarith : magValue n p - q ≤ 0)]
    rcases hside with ⟨hc, habs⟩ | ⟨hc, habs⟩ <;> rw [habs]
    · exact ⟨by linarith, fun hne heq => absurd (by linarith) hne⟩
    · refine ⟨by linarith, fun _ heq => ?_⟩
      have := heven (by linarith)
      omega

/-- In a direction, a rounded size that is finite is on that side of the size. -/
theorem RoundsToPlace.directed {n : NumFormat} {neg : Bool} {q : ℚ} {p : Nat} (h : RoundsToPlace n neg q p)
    (hfin : p < infMagnitude n) :
    (n.rounding = .towardZero → magValue n p ≤ q) ∧
    (n.rounding = .towardPositive → if neg then magValue n p ≤ q else q ≤ magValue n p) ∧
    (n.rounding = .towardNegative → if neg then q ≤ magValue n p else magValue n p ≤ q) := by
  obtain ⟨k, hlo, hhi, hp⟩ := h
  have hdown : ¬GoesUp n.rounding neg k (magValue n k) (magValue n (k + 1)) q → magValue n p ≤ q := by
    intro hup
    obtain ⟨hup', -⟩ | ⟨-, rfl⟩ := hp
    · exact absurd hup' hup
    · exact ((magValue_strictMono n).monotone (min_le_left _ _)).trans hlo
  have hup : staysFinite n.rounding neg = false →
      (GoesUp n.rounding neg k (magValue n k) (magValue n (k + 1)) q ↔ magValue n k < q) → q ≤ magValue n p := by
    intro hs hiff
    rw [topPlace, hs, if_neg Bool.false_ne_true, hiff] at hp
    rcases hp with ⟨-, hp⟩ | ⟨hq, hp⟩
    · obtain rfl : p = k + 1 := by omega
      exact hhi.le
    · obtain rfl : p = k := by omega
      exact not_lt.1 hq
  refine ⟨fun hrd => ?_, fun hrd => ?_, fun hrd => ?_⟩ <;> rw [hrd] at hdown hup
  · exact hdown id
  · cases neg
    · exact hup rfl (by simp [GoesUp])
    · exact hdown (by simp [GoesUp])
  · cases neg
    · exact hdown (by simp [GoesUp])
    · exact hup rfl (by simp [GoesUp])

/-! ### From the size to the signed value -/

theorem withSign_toNat_mod_two (neg : Bool) (p : Nat) : (withSign neg p).toNat % 2 = p % 2 := by
  cases neg <;> simp only [withSign, BitVec.toNat_ofNat] <;> split <;> omega

theorem abs_sgn_mul_sub (neg : Bool) (a b : ℚ) : |sgn neg * a - sgn neg * b| = |a - b| := by
  rw [← mul_sub, abs_mul]
  cases neg <;> simp [sgn]

/-- A finite number, seen with the sign of a result, is at some place below the infinity's. -/
theorem exists_value_eq_sgn_mul {n : NumFormat} (hn : n.wf = true) (neg : Bool) {c : F32} (hc : finite n c) :
    ∃ d : Int, d < infMagnitude n ∧ value n c = sgn neg * keyValue n d := by
  have ⟨hlo, hhi⟩ := orderKey_bounds_of_finite hc
  rw [value_eq_keyValue hn]
  cases neg
  · exact ⟨orderKey c, hhi, by simp [sgn]⟩
  · exact ⟨-orderKey c, by omega, by simp [sgn, keyValue_neg]⟩

/-- The size's place, with the sign, is the exact value rounded. -/
theorem RoundsToPlace.rounded {n : NumFormat} (hn : n.wf = true) {neg : Bool} {q : ℚ} {p : Nat}
    (h : RoundsToPlace n neg q p) : Rounded n (sgn neg * q) neg (withSign neg p) := by
  have hp := h.le_inf.trans_lt (infMagnitude_lt n)
  have hmag := magnitude_withSign neg hp
  have hval : value n (withSign neg p) = sgn neg * magValue n p := by
    rw [value_eq hn, signBit_withSign neg hp, hmag]
  refine ⟨signBit_withSign neg hp, hmag.trans_le h.le_inf, ?_, fun hfin => ⟨fun c hc => ?_, ?_⟩⟩
  · rw [hmag, abs_sgn_mul neg h.nonneg, h.eq_inf_iff hn]
  · obtain ⟨d, hd, hcd⟩ := exists_value_eq_sgn_mul hn neg hc
    have ⟨habove, hbelow⟩ := h.not_between hd
    rw [hval, hcd]
    cases neg <;> simp only [sgn, if_true, if_false, Bool.false_eq_true, one_mul, neg_one_mul, neg_lt_neg_iff, neg_le_neg_iff]
    · exact ⟨habove, hbelow⟩
    · exact ⟨fun ⟨h1, h2⟩ => hbelow ⟨h2, h1⟩, fun ⟨h1, h2⟩ => habove ⟨h2, h1⟩⟩
  · rw [finite, hmag] at hfin
    obtain ⟨hzero, hpos, hneg⟩ := h.directed hfin
    rw [hval, abs_sgn_mul neg h.nonneg, abs_sgn_mul neg (magValue_nonneg n p)]
    cases hrd : n.rounding
    case nearestEven =>
      intro c hc
      obtain ⟨d, -, hcd⟩ := exists_value_eq_sgn_mul hn neg hc
      obtain ⟨hnear, htie⟩ := h.nearest hrd hfin d
      rw [hcd, abs_sgn_mul_sub, abs_sgn_mul_sub, withSign_toNat_mod_two]
      exact ⟨hnear, fun hne => htie fun heq => hne (by rw [heq])⟩
    case towardZero => exact hzero hrd
    case towardPositive =>
      have := hpos hrd
      cases neg <;> simpa [sgn] using this
    case towardNegative =>
      have := hneg hrd
      cases neg <;> simpa [sgn] using this

/-- `roundPack` gives the correctly rounded number for its argument, and for every other size that is alike to it one bit below
the weight of the rounding. -/
theorem rounded_roundPack_of_alike {n : NumFormat} (hn : n.wf = true) (neg : Bool) {m : Nat} {e : Int} {q : ℚ}
    (hzero : m = 0 → q = 0) (halike : m ≠ 0 → Alike (roundWeight n m e - 1) (m * 2 ^ e) q) :
    Rounded n (sgn neg * q) neg (roundPack n neg m e) := by
  unfold roundPack
  split
  · next hm => rw [hzero hm]; exact (roundsToPlace_zero n neg).rounded hn
  · next hm => exact (roundMagnitude_roundsToPlace hn neg hm (halike hm)).rounded hn

theorem rounded_roundPack {n : NumFormat} (hn : n.wf = true) (neg : Bool) (m : Nat) (e : Int) :
    Rounded n (sgn neg * m * 2 ^ e) neg (roundPack n neg m e) := by
  rw [mul_assoc]
  exact rounded_roundPack_of_alike hn neg (fun hm => by simp [hm]) fun _ => .refl _ _

/-- An integer and its absolute value differ by the sign. -/
theorem sgn_mul_natAbs {neg : Bool} {k : Int} (h : k ≠ 0 → neg = decide (k < 0)) : sgn neg * (k.natAbs : ℚ) = k := by
  rcases eq_or_ne k 0 with rfl | hk
  · simp
  · obtain rfl := h hk
    rcases lt_or_gt_of_ne hk with hlt | hgt
    · simp [sgn, hlt, abs_of_neg]
    · simp [sgn, hgt.not_gt, hgt, abs_of_pos]

/-- A number of the format is rounded to itself. -/
theorem Rounded.exact {n : NumFormat} (hn : n.wf = true) {x : ℚ} {neg : Bool} {r c : F32} (h : Rounded n x neg r)
    (hc : finite n c) (hx : value n c = x) : finite n r ∧ value n r = x := by
  obtain ⟨-, hle, hinf, hfinite⟩ := h
  have hplace : magValue n (magnitude c) ≤ magValue n (infMagnitude n - 1) :=
    (magValue_strictMono n).monotone (Nat.le_sub_one_of_lt hc)
  have hlast := magValue_strictMono n (Nat.sub_lt (infMagnitude_pos hn) one_pos)
  have hno : ¬overflows n neg |x| := by
    rw [← hx, abs_value hn, overflows_iff hn]
    cases n.rounding <;> simp [hplace.not_gt]
    linarith
  have hfin : finite n r := lt_of_le_of_ne hle (mt hinf.1 hno)
  obtain ⟨hbetween, -⟩ := hfinite hfin
  have ⟨habove, hbelow⟩ := hbetween c hc
  rw [hx] at habove hbelow
  refine ⟨hfin, le_antisymm (not_lt.1 fun hlt => hbelow ⟨le_rfl, hlt⟩) (not_lt.1 fun hlt => habove ⟨hlt, le_rfl⟩)⟩

/-- A number with a significand of the format's width and an exponent in its range is a number of the format. -/
theorem exists_finite_value {n : NumFormat} (hn : n.wf = true) {i s : Nat} (hi : 2 ^ n.fracBits ≤ i)
    (hi' : i < 2 ^ (n.fracBits + 1)) (hs : s + 3 ≤ 2 ^ n.expBits) :
    ∃ c, finite n c ∧ value n c = i * 2 ^ ((s : Int) + leastWeight n) := by
  have hlt : i + s * 2 ^ n.fracBits < infMagnitude n := by
    have := Nat.mul_le_mul_right (2 ^ n.fracBits) (show s ≤ 2 ^ n.expBits - 3 by omega)
    rw [infMagnitude_eq_place hn]
    omega
  have hlt' := hlt.trans (infMagnitude_lt n)
  refine ⟨withSign false (i + s * 2 ^ n.fracBits), by rwa [finite, magnitude_withSign _ hlt'], ?_⟩
  rw [value_eq hn, signBit_withSign _ hlt', magnitude_withSign _ hlt', magValue_place n hi'.le (.inr hi)]
  simp [sgn]

/-- Five significant bits at a weight from −3 to 3 are a number of every format, as 2.0 and 100.0 are. -/
theorem exists_finite_literal {n : NumFormat} (hn : n.wf = true) {j : Nat} {t : Int} (hj : 2 ^ 4 ≤ j) (hj' : j < 2 ^ 5)
    (ht : -3 ≤ t) (ht' : t ≤ 3) : ∃ c, finite n c ∧ value n c = j * 2 ^ t := by
  obtain ⟨hf, hf'⟩ := (wf_iff_fracBits n).1 hn
  have ⟨he, h8⟩ := two_pow_expBits hn
  have hsplit : 2 ^ n.fracBits = 2 ^ 4 * 2 ^ (n.fracBits - 4) := (pow_mul_pow_sub 2 hf).symm
  have hlw : leastWeight n = 2 - ((2 ^ (n.expBits - 1) : Nat) : Int) - n.fracBits := rfl
  obtain ⟨c, hc, hval⟩ := exists_finite_value hn (i := j * 2 ^ (n.fracBits - 4))
    (s := (t + 2 + (2 ^ (n.expBits - 1) : Nat)).toNat)
    (by rw [hsplit]; exact Nat.mul_le_mul_right _ hj)
    (by rw [pow_succ', hsplit, ← mul_assoc]; exact Nat.mul_lt_mul_of_pos_right hj' (Nat.two_pow_pos _)) (by omega)
  have ht : t = (n.fracBits - 4 : Nat) + (((t + 2 + (2 ^ (n.expBits - 1) : Nat)).toNat : Int) + leastWeight n) := by omega
  refine ⟨c, hc, ?_⟩
  rw [hval]
  conv_rhs => rw [ht, zpow_add₀ two_ne_zero, zpow_natCast]
  push_cast; ring

theorem value_two {n : NumFormat} (hn : n.wf = true) : finite n (f32Two n) ∧ value n (f32Two n) = 2 := by
  obtain ⟨c, hc, hval⟩ := exists_finite_literal hn (j := 16) (t := -3) (by decide) (by decide) (by decide) (by decide)
  have h := Rounded.exact hn (rounded_roundPack hn false 2 0) hc (by rw [hval]; norm_num [sgn])
  norm_num [sgn] at h
  exact h

theorem value_hundred {n : NumFormat} (hn : n.wf = true) : finite n (f32Hundred n) ∧ value n (f32Hundred n) = 100 := by
  obtain ⟨c, hc, hval⟩ := exists_finite_literal hn (j := 25) (t := 2) (by decide) (by decide) (by decide) (by decide)
  have h := Rounded.exact hn (rounded_roundPack hn false 100 0) hc (by rw [hval]; norm_num [sgn])
  norm_num [sgn] at h
  exact h

/-- The value of a pattern from its three fields. -/
theorem value_of_fields {n : NumFormat} {b : F32} {neg : Bool} {m : Nat} {w : Int} (hs : signBit b = neg)
    (hm : significand n b = m) (hw : lastBit n b = w) : value n b = sgn neg * m * 2 ^ w := by
  rw [value, hs, hm, hw]

end Sys2Proof.Machine
end

section
/-! PROOFS. The arithmetic of 00_scope.md R8 on finite operands rounds the exact value, and the special operands. -/

namespace Sys2Proof.Machine

open Sys2Proof.Claim

/-! ### Sums -/

theorem scaledInt_mul (n : NumFormat) {b : F32} {e : Int} (he : e ≤ lastBit n b) :
    (scaledInt n b e : ℚ) * 2 ^ e = value n b := by
  have hpow : (2 : ℚ) ^ lastBit n b = 2 ^ (lastBit n b - e).toNat * 2 ^ e := by
    rw [← zpow_natCast, ← zpow_add₀ two_ne_zero]
    congr 1
    omega
  rw [scaledInt, value, hpow]
  cases signBit b <;> simp [sgn] <;> ring

/-- The sign of a sum of finite numbers: of an exact zero the one of `zeroSumSign`, and otherwise the value's. -/
def sumSign (n : NumFormat) (a b : F32) : Bool :=
  if value n a + value n b = 0 then zeroSumSign n.rounding (signBit a) (signBit b)
  else decide (value n a + value n b < 0)

theorem rounded_addFinite {n : NumFormat} (hn : n.wf = true) (a b : F32) :
    Rounded n (value n a + value n b) (sumSign n a b) (addFinite n a b) := by
  set e := min (lastBit n a) (lastBit n b) with he
  set sum := scaledInt n a e + scaledInt n b e with hsum
  have hp : (0 : ℚ) < 2 ^ e := by positivity
  have hval : value n a + value n b = sum * 2 ^ e := by
    rw [hsum, Int.cast_add, add_mul, scaledInt_mul n (min_le_left _ _), scaledInt_mul n (min_le_right _ _)]
  have hzero : value n a + value n b = 0 ↔ sum = 0 := by rw [hval, mul_eq_zero_iff_right hp.ne', Int.cast_eq_zero]
  have hneg : value n a + value n b < 0 ↔ sum < 0 := by
    rw [hval, ← not_le, mul_nonneg_iff_of_pos_right hp, not_le, Int.cast_lt_zero]
  have hsign : sumSign n a b =
      if sum = 0 then zeroSumSign n.rounding (signBit a) (signBit b) else decide (sum < 0) := by
    simp only [sumSign, hzero, hneg]
  have hadd : addFinite n a b = roundPack n (sumSign n a b) sum.natAbs e := by
    rw [hsign, addFinite, ← he, ← hsum]
    split
    · next h => rw [h]; rfl
    · rfl
  have h := rounded_roundPack hn (sumSign n a b) sum.natAbs e
  rwa [sgn_mul_natAbs fun h => by rw [hsign, if_neg h], ← hval, ← hadd] at h

/-! ### Products -/

theorem sgn_bne (s t : Bool) : sgn (s != t) = sgn s * sgn t := by cases s <;> cases t <;> simp [sgn]

theorem value_mul (n : NumFormat) (a b : F32) :
    value n a * value n b = sgn (signBit a != signBit b) * (significand n a * significand n b : Nat) *
      2 ^ (lastBit n a + lastBit n b) := by
  rw [sgn_bne, zpow_add₀ two_ne_zero, value, value]
  push_cast
  ring

/-! ### Quotients -/

theorem significand_lt (n : NumFormat) (b : F32) : significand n b < 2 ^ (n.fracBits + 1) := by
  have := Nat.mod_lt b.toNat (Nat.two_pow_pos n.fracBits)
  rw [significand, fracField, pow_succ]
  split <;> omega

theorem value_eq_zero_iff_significand (n : NumFormat) (b : F32) : value n b = 0 ↔ significand n b = 0 := by
  cases h : signBit b <;> simp [value, sgn, h, zpow_ne_zero]

theorem value_div (n : NumFormat) (a b : F32) :
    value n a / value n b = sgn (signBit a != signBit b) *
      ((significand n a / significand n b : ℚ) * 2 ^ (lastBit n a - lastBit n b)) := by
  have hs : sgn (signBit a) / sgn (signBit b) = sgn (signBit a) * sgn (signBit b) := by
    cases signBit b <;> simp [sgn, div_neg]
  rw [sgn_bne, zpow_sub₀ two_ne_zero, value, value, ← hs]
  simp only [div_eq_mul_inv, mul_inv]
  ring

/-- Two numbers strictly between neighbouring multiples of 2 to a weight are alike at it. -/
theorem alike_of_between {w i : Int} {x y : ℚ} (hx : i * 2 ^ w < x) (hx' : x < (i + 1) * 2 ^ w) (hy : i * 2 ^ w < y)
    (hy' : y < (i + 1) * 2 ^ w) : Alike w x y := by
  have hp : (0 : ℚ) < 2 ^ w := by positivity
  intro j
  rcases le_or_gt j i with hj | hj
  · have hle : (j : ℚ) * 2 ^ w ≤ i * 2 ^ w := by gcongr
    have hjx := hle.trans_lt hx
    have hjy := hle.trans_lt hy
    simp [hjx, hjy, hjx.not_gt, hjy.not_gt]
  · have hle : ((i : ℚ) + 1) * 2 ^ w ≤ j * 2 ^ w := by gcongr; exact_mod_cast hj
    have hjx := hx'.trans_le hle
    have hjy := hy'.trans_le hle
    simp [hjx, hjy, hjx.not_gt, hjy.not_gt]

/-- An integer quotient doubled, with a last bit set below it when a remainder is left: what `divFinite` rounds. -/
def stickyQuotient (d s : Nat) : Nat := 2 * (d / s) + if d % s = 0 then 0 else 1

theorem divFinite_eq (n : NumFormat) (a b : F32) :
    divFinite n a b = roundPack n (signBit a != signBit b)
      (stickyQuotient (significand n a * 2 ^ (2 * n.fracBits + 4)) (significand n b))
      (lastBit n a - lastBit n b - ((2 * n.fracBits + 4 : Nat) : Int) - 1) := rfl

/-- It is alike to the exact quotient at the weight of the integer quotient's last bit. -/
theorem alike_stickyQuotient (d : Nat) {s : Nat} (hs : 0 < s) (g : Int) :
    Alike (g + 1) (stickyQuotient d s * 2 ^ g) ((d / s : ℚ) * 2 ^ (g + 1)) := by
  have hs' : (0 : ℚ) < s := by exact_mod_cast hs
  have hp : (0 : ℚ) < 2 ^ g := by positivity
  have hg : (2 : ℚ) ^ (g + 1) = 2 * 2 ^ g := by rw [add_comm, zpow_one_add₀ two_ne_zero]
  have hd : (d : ℚ) / s = (d / s : Nat) + (d % s : Nat) / s := by
    rw [eq_comm, ← mul_right_inj' hs'.ne', mul_add, mul_div_cancel₀ _ hs'.ne', mul_div_cancel₀ _ hs'.ne']
    exact_mod_cast Nat.div_add_mod d s
  rw [hd, stickyQuotient]
  rcases Nat.eq_zero_or_pos (d % s) with hr | hr
  · have : ((2 * (d / s) + if d % s = 0 then 0 else 1 : Nat) : ℚ) * 2 ^ g =
        ((d / s : Nat) + (d % s : Nat) / s) * 2 ^ (g + 1) := by rw [hg, hr]; push_cast; ring
    rw [this]
    exact .refl _ _
  · have hr0 : (0 : ℚ) < (d % s : Nat) / s := by positivity
    have hr1 : ((d % s : Nat) : ℚ) / s < 1 := by rw [div_lt_one hs']; exact_mod_cast Nat.mod_lt d hs
    rw [if_neg hr.ne']
    apply alike_of_between (i := (d / s : Nat)) <;> rw [Int.cast_natCast]
    · rw [hg]; push_cast; linarith
    · rw [hg]; push_cast; linarith
    · gcongr; exact lt_add_of_pos_right _ hr0
    · gcongr

/-- The dividend is shifted up so far that the quotient has more bits than the format keeps. -/
theorem le_log2_stickyQuotient (n : NumFormat) {a b : F32} (ha : significand n a ≠ 0) (hb : significand n b ≠ 0) :
    n.fracBits + 2 ≤ (stickyQuotient (significand n a * 2 ^ (2 * n.fracBits + 4)) (significand n b)).log2 := by
  have hq : 2 ^ (n.fracBits + 3) ≤ significand n a * 2 ^ (2 * n.fracBits + 4) / significand n b := by
    rw [Nat.le_div_iff_mul_le (Nat.pos_of_ne_zero hb)]
    calc 2 ^ (n.fracBits + 3) * significand n b ≤ 2 ^ (n.fracBits + 3) * 2 ^ (n.fracBits + 1) :=
          Nat.mul_le_mul_left _ (significand_lt n b).le
      _ = 1 * 2 ^ (2 * n.fracBits + 4) := by rw [← pow_add, one_mul]; congr 1; omega
      _ ≤ significand n a * 2 ^ (2 * n.fracBits + 4) := Nat.mul_le_mul_right _ (Nat.one_le_iff_ne_zero.2 ha)
  have hlt : 2 ^ (n.fracBits + 2) < 2 ^ (n.fracBits + 3) := Nat.pow_lt_pow_right (by decide) (by omega)
  have hle := (hlt.trans_le hq).le.trans (Nat.le_mul_of_pos_left _ two_pos)
  have hle' := hle.trans (Nat.le_add_right _ (if significand n a * 2 ^ (2 * n.fracBits + 4) % significand n b = 0 then 0 else 1))
  exact (Nat.le_log2 (((Nat.two_pow_pos _).trans_le hle').ne')).2 hle'

theorem rounded_divFinite {n : NumFormat} (hn : n.wf = true) (a : F32) {b : F32} (hb : value n b ≠ 0) :
    Rounded n (value n a / value n b) (signBit a != signBit b) (divFinite n a b) := by
  have hsb : significand n b ≠ 0 := mt (value_eq_zero_iff_significand n b).2 hb
  rw [value_div, divFinite_eq]
  by_cases ha : significand n a = 0
  · exact rounded_roundPack_of_alike hn _ (fun _ => by simp [ha]) fun hm => absurd (by simp [ha, stickyQuotient]) hm
  · have hlog := le_log2_stickyQuotient n ha hsb
    refine rounded_roundPack_of_alike hn _ (fun hm => by simp [hm] at hlog) fun _ => ?_
    set d := significand n a * 2 ^ (2 * n.fracBits + 4) with hd
    set g := lastBit n a - lastBit n b - ((2 * n.fracBits + 4 : Nat) : Int) - 1 with hg
    have hquot : (significand n a / significand n b : ℚ) * 2 ^ (lastBit n a - lastBit n b) =
        (d / significand n b : ℚ) * 2 ^ (g + 1) := by
      have hw : lastBit n a - lastBit n b = (2 * n.fracBits + 4 : Nat) + (g + 1) := by omega
      rw [hw, zpow_add₀ two_ne_zero, zpow_natCast, hd]
      push_cast; ring
    rw [hquot]
    refine (alike_stickyQuotient d (Nat.pos_of_ne_zero hsb) g).mono ?_
    have : ((stickyQuotient d (significand n b)).log2 : Int) + g - n.fracBits ≤
      roundWeight n (stickyQuotient d (significand n b)) g := le_max_left _ _
    omega

/-! ### Special operands -/

theorem eq_of_signBit_of_magnitude {a b : F32} (hs : signBit a = signBit b) (hm : magnitude a = magnitude b) : a = b := by
  have ha := a.isLt
  have hb := b.isLt
  unfold signBit at hs
  unfold magnitude at hm
  rw [decide_eq_decide] at hs
  exact BitVec.eq_of_toNat_eq (by omega)

@[simp] theorem negBits_inf (n : NumFormat) (neg : Bool) : negBits (inf n neg) = inf n (!neg) :=
  eq_of_signBit_of_magnitude (by simp) (by simp)

@[simp] theorem isInf_negBits (n : NumFormat) (b : F32) : isInf n (negBits b) = isInf n b := by simp [isInf]

theorem isZero_inf {n : NumFormat} (hn : n.wf = true) (neg : Bool) : isZero (inf n neg) = false := by
  simp [isZero, (infMagnitude_pos hn).ne']

/-- `inf` names what the model writes out. -/
theorem withSign_infMagnitude (n : NumFormat) (neg : Bool) : withSign neg (infMagnitude n) = inf n neg := rfl

theorem isZero_iff {n : NumFormat} (hn : n.wf = true) (b : F32) : isZero b = true ↔ value n b = 0 := by
  rw [isZero, decide_eq_true_eq, value_eq_zero_iff hn]

theorem isNaN_nanPattern {n : NumFormat} (hn : n.wf = true) (free : BitVec 32) : isNaN n (nanPattern n free) = true := by
  obtain ⟨hf, hf'⟩ := (wf_iff_fracBits n).1 hn
  have hlt := Nat.mod_lt free.toNat (Nat.two_pow_pos n.fracBits)
  have hhalf : 2 ^ (n.fracBits - 1) < 2 ^ n.fracBits := Nat.pow_lt_pow_right (by decide) (by omega)
  have hp := Nat.two_pow_pos (n.fracBits - 1)
  have hle : 2 ^ n.fracBits ≤ 2 ^ 31 := Nat.pow_le_pow_right (by decide) (by omega)
  have hfrac : 0 < (if fracField n free = 0 then 2 ^ (n.fracBits - 1) else fracField n free) ∧
      (if fracField n free = 0 then 2 ^ (n.fracBits - 1) else fracField n free) < 2 ^ n.fracBits := by
    unfold fracField
    split <;> omega
  rw [nanPattern, isNaN, magnitude_withSign _ (by unfold infMagnitude; omega)]
  exact decide_eq_true (Nat.lt_add_of_pos_right hfrac.1)

/-! ### The operations on finite operands -/

theorem fadd_finite {n : NumFormat} {a b : F32} (ha : finite n a) (hb : finite n b) :
    fadd n (.num a) (.num b) = .num (addFinite n a b) := by
  simp [fadd, addNum, isInf_of_finite ha, isInf_of_finite hb]

theorem fsub_finite {n : NumFormat} {a b : F32} (ha : finite n a) (hb : finite n b) :
    fsub n (.num a) (.num b) = .num (addFinite n a (negBits b)) := by
  simp [fsub, addNum, isInf_of_finite ha, isInf_of_finite hb]

theorem fmul_finite {n : NumFormat} {a b : F32} (ha : finite n a) (hb : finite n b) :
    fmul n (.num a) (.num b) = .num (roundPack n (signBit a != signBit b) (significand n a * significand n b)
      (lastBit n a + lastBit n b)) := by
  simp [fmul, mulNum, isInf_of_finite ha, isInf_of_finite hb]

theorem fdiv_finite {n : NumFormat} {a b : F32} (ha : finite n a) (hb : finite n b) (hb0 : isZero b = false) :
    fdiv n (.num a) (.num b) = .num (divFinite n a b) := by
  simp [fdiv, divNum, isInf_of_finite ha, isInf_of_finite hb, hb0]

end Sys2Proof.Machine
end

section
/-! PROOFS. The obligations of 00_scope.md. -/

open Sys2Proof Sys2Proof.Machine Sys2Proof.Claim

/-- Settles O5: each byte is below 2^8, so the digits of a number in base 2^8 are its bytes. -/
theorem codecsAreLittleEndianInverses : Obligations.CodecsAreLittleEndianInverses := by
  refine ⟨fun b0 b1 b2 b3 => ⟨?_, le32_u32le b0 b1 b2 b3⟩, fun v => ⟨_, _, _, _, rfl, u32le_le32 v⟩,
    fun b0 b1 => ⟨?_, rfl⟩⟩
  · have h0 := b0.isLt
    have h1 := b1.isLt
    have h2 := b2.isLt
    have h3 := b3.isLt
    simp only [f32le, u32le, BitVec.toNat_ofNat]
    omega
  · have h0 := b0.isLt
    simp only [le16, u16le, List.cons.injEq, and_true]
    constructor <;> (apply BitVec.eq_of_toNat_eq; simp only [BitVec.toNat_ofNat]; omega)

/-- Settles O55, by whether the argument is a NaN. -/
theorem clampFollowsItsRule : Obligations.ClampFollowsItsRule := by
  intro n x lo hi
  rcases hx : isNaN n x with _ | _
  · rw [ofBits_of_notNaN hx]
    simp +contextual [clampF]
  · rw [ofBits_of_isNaN hx]
    simp [clampF]

/-- Settles O60: the value at a place in the order is strictly increasing, and the sign operations keep the magnitude. -/
theorem comparisonsFollowTheOrder : Obligations.ComparisonsFollowTheOrder := by
  intro n hn
  have mono := keyValue_strictMono n
  have hpos := infMagnitude_pos hn
  refine ⟨fun a b _ _ => ?_, fun a ha => ?_, fun s t => ?_, fun u v => ?_, fun b => rfl, fun b => ⟨?_, ?_, ?_, ?_⟩⟩
  · simp only [flt, fle, feq, decide_eq_true_eq, value_eq_keyValue hn, mono.lt_iff_lt, mono.le_iff_le,
      mono.injective.eq_iff, and_self]
  · have ⟨hlo, hhi⟩ := orderKey_bounds_of_finite ha
    simp [flt, fle, orderKey_inf, hlo, hhi]
  · cases s <;> cases t <;> simp [flt, fle, feq, orderKey_inf] <;> omega
  · cases v <;> simp [flt, fle, feq]
  · exact ⟨_, rfl, by simp [value_negBits hn]⟩
  · exact ⟨_, rfl, by simp [value_absBits hn]⟩
  · exact ⟨_, rfl, by simp⟩
  · exact ⟨_, rfl, by simp⟩

/-- Settles O56: `roundPack` rounds correctly, and rounds a number of the format, as 2.0 and 100.0 are, to itself. -/
theorem roundingIsCorrect : Obligations.RoundingIsCorrect := by
  refine ⟨fun n hn => ⟨rounded_roundPack hn, fun k => ⟨_, rfl, ?_⟩, (value_two hn).1, (value_two hn).2,
    (value_hundred hn).1, (value_hundred hn).2⟩, rfl, ?_, ?_, ?_⟩
  · have h := rounded_roundPack hn (decide (k < 0)) k.natAbs 0
    rwa [zpow_zero, mul_one, sgn_mul_natAbs fun _ => rfl] at h
  · rw [value_of_fields (neg := false) (m := 2 ^ 23) (w := -23) (by decide) (by decide) (by decide)]
    norm_num [sgn]
  · rw [value_of_fields (neg := false) (m := 25 * 2 ^ 19) (w := -17) (by decide) (by decide) (by decide)]
    norm_num [sgn]
  · rw [value_of_fields (neg := false) (m := 1) (w := -149) (by decide) (by decide) (by decide)]
    norm_num [sgn]

/-- Settles O57: the integers that a sum and a product round are the exact values, and a difference is the sum with
the second operand negated. -/
theorem sumsAndProductsRoundTheExactValue : Obligations.SumsAndProductsRoundTheExactValue := by
  intro n a b hn ha hb
  refine ⟨⟨_, fadd_finite ha hb, rounded_addFinite hn a b⟩, ⟨_, fsub_finite ha hb, ?_⟩, ⟨_, fmul_finite ha hb, ?_⟩⟩
  · have h := rounded_addFinite hn a (negBits b)
    rwa [sumSign, value_negBits hn, ← sub_eq_add_neg, signBit_negBits] at h
  · rw [value_mul]
    exact rounded_roundPack hn _ _ _

/-- Settles O58: the integer quotient with its last bit is rounded as the exact quotient is. -/
theorem quotientRoundsTheExactValue : Obligations.QuotientRoundsTheExactValue := by
  intro n a b hn ha hb hzero
  have hb0 : isZero b = false := Bool.eq_false_iff.2 (mt (isZero_iff hn b).1 hzero)
  exact ⟨_, fdiv_finite ha hb hb0, rounded_divFinite hn a hzero⟩

/-- Settles O59, by the kind of the two operands: a NaN, two infinities, an infinity and a number, a zero divisor. -/
theorem specialOperandsFollowIeee : Obligations.SpecialOperandsFollowIeee := by
  intro n hn isNan
  have hnan (op : FloatOp) (x y : Val) : isNan (nanResult n op x y) := ⟨_, rfl, isNaN_nanPattern hn _⟩
  have hzero (b : F32) (h : value n b = 0) : isZero b = true := (isZero_iff hn b).2 h
  have hnonzero (b : F32) (h : value n b ≠ 0) : isZero b = false := Bool.eq_false_iff.2 (mt (isZero_iff hn b).1 h)
  refine ⟨?_, fun s t => ?_, fun s a ha => ?_, fun a b ha hb hbfin => ?_⟩
  · rintro x y u (rfl | rfl)
    · cases y <;> exact ⟨hnan _ _ _, hnan _ _ _, hnan _ _ _, hnan _ _ _⟩
    · cases x <;> exact ⟨hnan _ _ _, hnan _ _ _, hnan _ _ _, hnan _ _ _⟩
  · refine ⟨fun h => ?_, fun h => ?_, fun h => ?_, fun h => ?_, ?_, ?_⟩
    · simp [fadd, addNum, h]
    · simp [fadd, addNum, h, hnan]
    · simp [fsub, addNum, h]
    · simp [fsub, addNum, h, hnan]
    · simp [fmul, mulNum, isZero_inf hn, withSign_infMagnitude]
    · simp [fdiv, divNum, hnan]
  · have hinf := isInf_of_finite ha
    refine ⟨?_, ?_, ?_, ?_, fun h => ⟨?_, ?_⟩, fun h => ⟨?_, ?_⟩, ?_, ?_⟩
    · simp [fadd, addNum, hinf]
    · simp [fadd, addNum, hinf]
    · simp [fsub, addNum, hinf]
    · simp [fsub, addNum, hinf]
    · simp [fmul, mulNum, hzero a h, hnan]
    · simp [fmul, mulNum, hzero a h, hnan]
    · simp [fmul, mulNum, hnonzero a h, isZero_inf hn, withSign_infMagnitude]
    · simp [fmul, mulNum, hnonzero a h, isZero_inf hn, withSign_infMagnitude, bne_comm]
    · simp [fdiv, divNum, hinf, withSign_infMagnitude]
    · simp [fdiv, divNum, hinf, bne_comm]
  · have hinfa := isInf_of_finite ha
    have hinfb := isInf_of_finite hbfin
    refine ⟨fun h => ?_, fun h => ?_⟩
    · simp [fdiv, divNum, hinfa, hinfb, hzero b hb, hzero a h, hnan]
    · simp [fdiv, divNum, hinfa, hinfb, hzero b hb, hnonzero a h, withSign_infMagnitude]
end

section
/-! PROOFS. What running an instruction is, and what a command's handler can do, said once. -/

namespace Sys2Proof.Machine

/-- What an instruction does to a constructed block. -/
def run : Instr → State → State
  | .reset => runReset
  | .rx bytes => runRx bytes
  | .poll now => runPoll now
  | .tick pv now => runTick pv now
  | .ok now => runOk now
  | .readCounters => runReadCounters
  | .txDrain => runTxDrain
  | i => runWire i

theorem run_of_wire {i : Instr} (hi : i.space = .wire) : run i = runWire i := by
  cases i with
  | reset | rx | poll | tick | ok | readCounters | txDrain => cases hi
  | _ => rfl

theorem whenLive_eq_next_iff {op : State → State} {s t : State} :
    whenLive op s = .next t ↔ s.live = true ∧ op s = t := by
  constructor
  · exact fun h => (whenLive_next h).imp_right Eq.symm
  · rintro ⟨hl, rfl⟩
    exact whenLive_of_live hl

theorem exec_eq_whenLive {i : Instr} (hi : i ≠ .reset) (s : State) : exec i s = whenLive (run i) s := by
  cases i with
  | reset => exact absurd rfl hi
  | _ => rfl

/-- RESET runs always, and every other instruction on a constructed block only (70_reset_and_hazards.md R232). -/
theorem exec_eq_next_iff {i : Instr} {s t : State} :
    exec i s = .next t ↔ (i = .reset ∨ s.live = true) ∧ run i s = t := by
  by_cases hi : i = .reset
  · subst hi
    simp [exec, execReset, run]
  · rw [exec_eq_whenLive hi, whenLive_eq_next_iff]
    simp [hi]

/-! ### Handlers -/

/-- The handler of a wire command. NO_HANDLER runs none, and is a failure with nothing written (60_exceptions.md R215). -/
def handle : Instr → State → State × Reply
  | .readStatus _ _ p => handleReadStatus p
  | .setSp _ _ p => handleSetSp p
  | .setCv _ _ p => handleSetCv p
  | .setKp _ _ p => handleSetKp p
  | .setKi _ _ p => handleSetKi p
  | .setKd _ _ p => handleSetKd p
  | .setPvMin _ _ p => handleSetPvMin p
  | .setPvMax _ _ p => handleSetPvMax p
  | .setMode _ _ p => handleSetMode p
  | .readComposite _ _ p => handleReadComposite p
  | .setOuterMode _ _ p => handleSetOuterMode p
  | .setCtrlSp _ _ p => handleSetCtrlSp p
  | .setInnerMode _ _ p => handleSetInnerMode p
  | .noHandler _ _ _ _ _ => fun s => (s, .failed .noHandler)
  | .unknownCmd _ _ _ _ => handleUnknownCmd
  | _ => fun s => (s, .done [])

/-- A wire command is its handler's reply to the frame the encoder writes for it. -/
theorem runWire_eq_finish {i : Instr} (hi : i.space = .wire) (s : State) :
    runWire i s = finish (frameOfBytes (encode s.cfg i)) (handle i s) := by
  cases i <;> simp only [Instr.space, reduceCtorEq] at hi
  all_goals
    rw [encode, frameOfBytes_frameBytes]
    rfl

/-- The three things a handler can do: answer with nothing written, from what is no counter; stage into the pending slots; or
write the outer mode, the inner mode or the setpoint of ControlState. -/
inductive HandlerForm : (State → State × Reply) → Prop
  | answers (reply : State → Reply) (h : ∀ s n, reply { s with cnt := n } = reply s) :
      HandlerForm fun s => (s, reply s)
  | stages (f : PidPending → PidPending) : HandlerForm fun s => (setPend (f s.pend) s, .done [])
  | writes (outer inner : ControlState → Byte) (sp : ControlState → F32) :
      HandlerForm fun s =>
        (setCtrl { s.ctrl with outer := outer s.ctrl, inner := inner s.ctrl, sp := sp s.ctrl } s, .done [])

theorem HandlerForm.failed (why : ErrorClass) : HandlerForm fun s => (s, .failed why) :=
  .answers (fun _ => .failed why) fun _ _ => rfl

theorem HandlerForm.withFloat {write : F32 → State → State} (h : ∀ v, HandlerForm fun s => (write v s, .done []))
    (p : List Byte) : HandlerForm (Machine.withFloat write p) := by
  unfold Machine.withFloat
  split
  · exact h _
  · exact .failed .payload

theorem HandlerForm.withByte {write : Byte → State → State} (h : ∀ b, HandlerForm fun s => (write b s, .done []))
    (p : List Byte) : HandlerForm (Machine.withByte write p) := by
  unfold Machine.withByte
  split
  · exact h _
  · exact .failed .payload

theorem HandlerForm.withRecord (size : Nat) {record : State → List Byte}
    (h : ∀ s n, record { s with cnt := n } = record s) : HandlerForm (Machine.withRecord size record) := by
  have he : Machine.withRecord size record =
      fun s => (s, if s.cfg.outCap < size then .failed .statusCap else .done (record s)) := by
    funext s
    unfold Machine.withRecord
    split <;> rfl
  rw [he]
  exact .answers _ fun s n => by rw [h]

theorem handle_form (i : Instr) : HandlerForm (handle i) := by
  cases i with
  | readStatus _ _ p => exact .withRecord _ fun _ _ => rfl
  | setSp _ _ p => exact .withFloat (fun v => .stages fun q => { q with sp := some v }) p
  | setCv _ _ p => exact .withFloat (fun v => .stages fun q => { q with cv := some v }) p
  | setKp _ _ p => exact .withFloat (fun v => .stages fun q => { q with kp := some v }) p
  | setKi _ _ p => exact .withFloat (fun v => .stages fun q => { q with ki := some v }) p
  | setKd _ _ p => exact .withFloat (fun v => .stages fun q => { q with kd := some v }) p
  | setPvMin _ _ p => exact .withFloat (fun v => .stages fun q => { q with pvMin := some v }) p
  | setPvMax _ _ p => exact .withFloat (fun v => .stages fun q => { q with pvMax := some v }) p
  | setMode _ _ p => exact .withByte (fun b => .stages fun q => { q with mode := some b }) p
  | readComposite _ _ p => exact .withRecord _ fun _ _ => rfl
  | setOuterMode _ _ p => exact .withByte (fun b => .writes (fun _ => b) (·.inner) (·.sp)) p
  | setCtrlSp _ _ p => exact .withFloat (fun v => .writes (·.outer) (·.inner) fun _ => v) p
  | setInnerMode _ _ p => exact .withByte (fun b => .writes (·.outer) (fun _ => b) (·.sp)) p
  | noHandler => exact .failed .noHandler
  | unknownCmd => exact .failed .unknownCmd
  | _ => exact .answers (fun _ => .done []) fun _ _ => rfl

theorem selectPid_space (k : CommandIds) (f : Frame) : (selectPid k f).space = .wire := by
  fun_cases selectPid k f <;> rfl

theorem selectController_space (k : CommandIds) (f : Frame) : (selectController k f).space = .wire := by
  fun_cases selectController k f with
  | case5 => exact selectPid_space k f
  | _ => rfl

/-- A frame selects a wire command or a fallback row. -/
theorem select_space (c : Config) (f : Frame) : (select c f).space = .wire := by
  unfold select
  split
  · rfl
  · exact selectController_space _ _
  · exact selectPid_space _ _

theorem dispatchFrame_eq_finish (f : Frame) (s : State) :
    dispatchFrame f s = finish (frameOfBytes (encode s.cfg (select s.cfg f))) (handle (select s.cfg f) s) :=
  runWire_eq_finish (select_space s.cfg f) s

/-! ### POLL as a whole -/

/-- The three ways a POLL ends, after its drain and scan. -/
theorem runPoll_cases (now : Nat) (s : State) :
    runPoll now s = returning (.poll .noFrame) (scan (drain s)).1 ∨
    runPoll now s = returning (.poll .badLength) (raise .badLength 0 (dropFront 1 (scan (drain s)).1)) ∨
    ∃ f length, runPoll now s =
      returning (.poll .dispatched) (dispatchFrame f (extract now length (scan (drain s)).1)) := by
  unfold runPoll
  simp only
  split
  · rcases pollAligned_cases now (scan (drain s)).1 with ⟨-, h⟩ | ⟨-, -, h⟩ | ⟨-, -, -, h⟩ | ⟨-, -, -, h⟩
    · exact .inl h
    · exact .inr (.inl h)
    · exact .inl h
    · exact .inr (.inr ⟨_, _, h⟩)
  · exact .inl rfl

end Sys2Proof.Machine
end

section
/-! PROOFS. What a wire command, POLL and TICK may write, and that nothing else changes (10_state.md R36). -/

namespace Sys2Proof.Machine

/-! ### Wire commands and POLL -/

theorem finish_frame_of_form {h : State → State × Reply} (hf : HandlerForm h) (req : Frame) (s : State) :
    ∃ pend outer inner sp out cnt, finish req (h s) =
      { s with pend := pend, ctrl := { s.ctrl with outer := outer, inner := inner, sp := sp },
               tr := { s.tr with outQ := s.tr.outQ ++ out }, cnt := cnt } := by
  cases hf with
  | answers reply =>
    rcases finish_cases req (s, reply s) with ⟨buf, -, he⟩ | ⟨why, -, he⟩ <;> rw [he]
    · exact ⟨_, _, _, _, _, _, rfl⟩
    · rw [raise_frame]
      exact ⟨_, _, _, _, _, _, rfl⟩
  | stages f => exact ⟨_, _, _, _, _, _, rfl⟩
  | writes outer inner sp => exact ⟨_, _, _, _, _, _, rfl⟩

theorem runWire_frame {i : Instr} (hi : i.space = .wire) (s : State) :
    ∃ pend outer inner sp out cnt, runWire i s =
      { s with pend := pend, ctrl := { s.ctrl with outer := outer, inner := inner, sp := sp },
               tr := { s.tr with outQ := s.tr.outQ ++ out }, cnt := cnt } := by
  rw [runWire_eq_finish hi]
  exact finish_frame_of_form (handle_form i) _ s

theorem dispatchFrame_frame (f : Frame) (s : State) :
    ∃ pend outer inner sp out cnt, dispatchFrame f s =
      { s with pend := pend, ctrl := { s.ctrl with outer := outer, inner := inner, sp := sp },
               tr := { s.tr with outQ := s.tr.outQ ++ out }, cnt := cnt } :=
  runWire_frame (select_space s.cfg f) s

/-- Before its dispatch a POLL has emptied the input, and has touched the buffer and the counters besides. -/
theorem scan_drain_frame (s : State) :
    ∃ rx cnt, (scan (drain s)).1 = { s with tr := { s.tr with rx := rx, inQ := [] }, cnt := cnt } := by
  obtain ⟨_, _, hs⟩ := scan_frame (drain s)
  obtain ⟨_, _, hd⟩ := drain_frame s
  rw [hs, hd]
  exact ⟨_, _, rfl⟩

theorem runPoll_frame (now : Nat) (s : State) :
    ∃ pend outer inner sp tr cnt r, runPoll now s =
      { s with pend := pend, ctrl := { s.ctrl with outer := outer, inner := inner, sp := sp },
               tr := tr, cnt := cnt, result := .poll r } ∧
      tr.inQ = [] ∧ s.tr.outQ <+: tr.outQ := by
  obtain ⟨_, _, hu⟩ := scan_drain_frame s
  rcases runPoll_cases now s with he | he | ⟨f, length, he⟩ <;> rw [he]
  · rw [hu]
    exact ⟨_, _, _, _, _, _, _, rfl, rfl, [], List.append_nil _⟩
  · rw [hu]
    exact ⟨_, _, _, _, _, _, _, rfl, rfl, [], List.append_nil _⟩
  · obtain ⟨_, _, _, _, _, _, hw⟩ := dispatchFrame_frame f (extract now length (scan (drain s)).1)
    rw [hw, hu]
    exact ⟨_, _, _, _, _, _, _, rfl, rfl, _, rfl⟩

/-! ### TICK -/

theorem outerFallback_eq (s : State) :
    outerFallback s = { s with ctrl := { s.ctrl with
      outer := if s.ctrl.outer ∈ s.cfg.modes.outer then s.ctrl.outer else s.cfg.modes.outerOff } } := by
  unfold outerFallback
  split <;> rfl

theorem outerArm_frame (pv : F32) (s : State) :
    ∃ pid inner, outerArm pv s = { s with pid := pid, ctrl := { s.ctrl with inner := inner } } := by
  rcases outerArm_cases pv s with he | he | he | he | he <;> exact ⟨_, _, he⟩

/-- The arbiter writes the PID registers, the pending slots and the two modes of ControlState only. -/
theorem arbitrate_frame (pv : F32) (s : State) :
    ∃ pid inner, arbitrate pv s =
      { s with pid := pid, pend := PidPending.empty, ctrl := { s.ctrl with
          outer := if s.ctrl.outer ∈ s.cfg.modes.outer then s.ctrl.outer else s.cfg.modes.outerOff
          inner := inner } } := by
  obtain ⟨_, _, he⟩ := outerArm_frame pv (outerFallback (applyPending s))
  rw [arbitrate, he, outerFallback_eq]
  exact ⟨_, _, rfl⟩

theorem modeArm_frame (pv : F32) (now : Nat) (s : State) :
    ∃ pid hist, (modeArm pv now s).1 = { s with pid := pid, hist := hist } := by
  rcases modeArm_cases pv now s with ⟨-, he⟩ | ⟨-, he⟩ | ⟨-, he⟩ | ⟨-, he⟩ <;> rw [he]
  · exact ⟨_, _, rfl⟩
  · exact ⟨_, _, rfl⟩
  · rcases updateAuto_cases now s with he | ⟨-, he⟩ <;> rw [he] <;> exact ⟨_, _, rfl⟩
  · exact ⟨_, _, rfl⟩

theorem runTick_frame (pv : F32) (now : Nat) (s : State) :
    ∃ pid hist inner, runTick pv now s =
      { s with pid := pid, pend := PidPending.empty, hist := hist, ctrl := { s.ctrl with
          outer := if s.ctrl.outer ∈ s.cfg.modes.outer then s.ctrl.outer else s.cfg.modes.outerOff
          inner := inner }, result := .tick pid.cv } := by
  obtain ⟨_, _, ha⟩ := arbitrate_frame pv s
  obtain ⟨_, _, hm⟩ := modeArm_frame pv now (recordPv pv (arbitrate pv s))
  rw [runTick, pidUpdate, modeArm_value, hm, ha]
  exact ⟨_, _, _, rfl⟩

/-! ### Every host operation -/

/-- No instruction writes the configuration, and none takes a constructed block back to before RESET. -/
theorem run_cfg_live (i : Instr) (s : State) : (run i s).cfg = s.cfg ∧ (s.live = true → (run i s).live = true) := by
  by_cases hi : i.space = .wire
  · obtain ⟨_, _, _, _, _, _, he⟩ := runWire_frame hi s
    rw [run_of_wire hi, he]
    exact ⟨rfl, id⟩
  cases i with
  | reset => exact ⟨rfl, fun _ => rfl⟩
  | rx => exact ⟨rfl, id⟩
  | poll now =>
    obtain ⟨_, _, _, _, _, _, _, he, -, -⟩ := runPoll_frame now s
    rw [run, he]
    exact ⟨rfl, id⟩
  | tick pv now =>
    obtain ⟨_, _, _, he⟩ := runTick_frame pv now s
    rw [run, he]
    exact ⟨rfl, id⟩
  | ok => exact ⟨rfl, id⟩
  | readCounters => exact ⟨rfl, id⟩
  | txDrain => exact ⟨rfl, id⟩
  | _ => exact absurd rfl hi

end Sys2Proof.Machine
end

section
/-! PROOFS. The invariant of a constructed block is kept: by every write of the transport and of a handler, so by RX, POLL and
the wire commands, and by RESET. -/

namespace Sys2Proof.Machine

/-! ### What a sound configuration says -/

theorem Config.sound_defaultRange {c : Config} (h : Config.sound c = true) :
    validRange c.num c.defaultPvMin c.defaultPvMax = true := by
  simp only [Config.sound, Bool.and_eq_true] at h
  exact h.2

theorem Config.sound_rxCap {c : Config} (h : Config.sound c = true) : headerSize ≤ c.rxCap := by
  simp only [Config.sound, Config.wf, Config.bounds, Bool.and_eq_true, decide_eq_true_eq] at h
  omega

/-- The codes of the three PID modes differ. -/
theorem Config.sound_pidModes {c : Config} (h : Config.sound c = true) :
    c.modes.pidOff ≠ c.modes.pidManual ∧ c.modes.pidOff ≠ c.modes.pidAuto ∧ c.modes.pidManual ≠ c.modes.pidAuto := by
  simp only [Config.sound, Config.wf, Config.codesDistinct, Bool.and_eq_true, decide_eq_true_eq] at h
  obtain ⟨⟨⟨-, ⟨⟨-, hpid⟩, -⟩, -⟩, -⟩, -⟩ := h
  simpa [ModeCodes.pid, and_assoc] using hpid

theorem inPercentRange_zero (n : NumFormat) : inPercentRange n f32Zero = true :=
  clampPercent_nan n f32Zero ▸ clampPercent_inRange n (.nan f32Zero)

namespace State.Inv

/-! ### The transport -/

variable {s : State} (h : s.Inv)

include h

theorem returning (r : OpResult) : (returning r s).Inv := { h with }

theorem setOps (ops : List (List Byte)) : State.Inv { s with ops := ops } := { h with }

/-- A counter that wraps stays within its width. -/
theorem count (c : Counter) (k : Nat) : (count c k s).Inv :=
  { h with
    countersFit := by
      obtain ⟨h1, h2, h3, h4, h5, h6⟩ := h.countersFit
      have hw (x : Nat) : wrapAdd s.cfg.counterW x k < 2 ^ s.cfg.counterW := Nat.mod_lt _ (Nat.two_pow_pos _)
      cases c <;> simp [Counters.add, *] }

theorem raise (e : ErrorClass) (k : Nat) : (raise e k s).Inv := by
  cases e with
  | resync => exact (h.count _ _).count _ _
  | invalidMode => exact h
  | _ => exact h.count _ _

theorem setRx {rx : List Byte} (hrx : rx.length ≤ s.cfg.rxCap) : (setTr { s.tr with rx := rx } s).Inv :=
  { h with rxBounded := hrx }

theorem setInQ (b : List Byte) : (setInQ b s).Inv := { h with }

theorem emit (b : List Byte) : (emit b s).Inv := { h with }

theorem clear : (clear s).Inv := h.setRx (Nat.zero_le _)

theorem dropFront (k : Nat) : (dropFront k s).Inv :=
  h.setRx (by simpa using Nat.le_add_right_of_le h.rxBounded)

theorem append (b : Byte) (hlt : s.tr.rx.length < s.cfg.rxCap) : (append b s).Inv :=
  h.setRx (by simpa using hlt)

theorem drainByte (b : Byte) : (drainByte s b).Inv := by
  have hcap := Config.sound_rxCap h.config
  have hrx := h.rxBounded
  rcases drainByte_cases s b with ⟨hn, he⟩ | ⟨-, he⟩ <;> rw [he]
  · exact h.append b (by omega)
  · exact (h.clear.raise _ _).append b (by simpa using Nat.lt_of_lt_of_le (by decide) hcap)

theorem drain : (drain s).Inv := by
  have hfold (bytes : List Byte) : (bytes.foldl Machine.drainByte s).Inv := by
    induction bytes generalizing s with
    | nil => exact h
    | cons b rest ih => exact ih (h.drainByte b)
  exact (hfold s.tr.inQ).setInQ []

theorem resyncDrop (k : Nat) : (resyncDrop k s).Inv := by
  unfold Machine.resyncDrop
  split
  · exact (h.dropFront k).raise _ _
  · exact h

theorem scan : (scan s).1.Inv := by
  unfold Machine.scan
  split <;> exact h.resyncDrop _

theorem extract {now : Nat} (hnow : timeFits s.cfg now = true) (length : Nat) : (extract now length s).Inv :=
  { h.dropFront length with
    neverReceived := nofun
    timesFit := ⟨h.timesFit.1, of_decide_eq_true hnow⟩ }

/-! ### Handlers and responses -/

theorem finish (req : Frame) {form : State → State × Reply} (hf : HandlerForm form) : (finish req (form s)).Inv := by
  have hform : (form s).1.Inv := by
    cases hf with
    | answers => exact h
    | stages => exact { h with }
    | writes => exact { h with }
  rcases finish_cases req (form s) with ⟨buf, -, he⟩ | ⟨why, -, he⟩ <;> rw [he]
  · exact hform.emit _
  · exact (hform.raise _ _).emit _

theorem dispatchFrame (f : Frame) : (dispatchFrame f s).Inv := by
  rw [dispatchFrame_eq_finish]
  exact h.finish _ (handle_form _)

theorem runPoll {now : Nat} (hnow : timeFits s.cfg now = true) : (runPoll now s).Inv := by
  have hscan := h.drain.scan
  have hcfg : (Machine.scan (Machine.drain s)).1.cfg = s.cfg := by
    obtain ⟨_, _, he⟩ := scan_drain_frame s
    rw [he]
  rcases runPoll_cases now s with he | he | ⟨f, length, he⟩ <;> rw [he]
  · exact hscan.returning _
  · exact ((hscan.dropFront 1).raise _ _).returning _
  · exact ((hscan.extract (hcfg ▸ hnow) length).dispatchFrame f).returning _

end State.Inv

/-! ### RESET -/

/-- The block RESET constructs under a sound configuration meets the invariant (70_reset_and_hazards.md R230, R231). -/
theorem construct_inv {c : Config} (h : Config.sound c = true) : (State.construct c).Inv where
  config := h
  rxBounded := Nat.zero_le _
  cvInRange := by
    simp only [State.construct, PidStatus.atReset]
    rw [checkRange_frame]
    exact inPercentRange_zero _
  rangeValid := checkRange_valid (Config.sound_defaultRange h) _
  modeLegal := by
    simp only [State.construct, PidStatus.atReset]
    rw [checkRange_frame]
    simp [ModeCodes.pid]
  freshOutsideAuto := fun _ => rfl
  offIsZero := fun _ => by
    simp only [State.construct, PidStatus.atReset]
    rw [checkRange_frame]
  tuning := ⟨rfl, rfl, rfl, rfl⟩
  neverReceived := fun _ => rfl
  timesFit := ⟨Nat.two_pow_pos _, Nat.two_pow_pos _⟩
  countersFit := ⟨Nat.two_pow_pos _, Nat.two_pow_pos _, Nat.two_pow_pos _, Nat.two_pow_pos _, Nat.two_pow_pos _,
    Nat.two_pow_pos _⟩

theorem State.Inv.runReset {s : State} (h : s.Inv) : (runReset s).Inv := (construct_inv h.config).setOps s.ops

end Sys2Proof.Machine
end

section
/-! PROOFS. TICK keeps the invariant. The drain of the slots and the arbiter's arms keep all of it but what ties Cv and the prior
tick to the PID mode, and the PID update restores that. -/

namespace Sys2Proof.Machine

/-- A state with its PID put in Auto, the mode of which the invariant asks least: Cv in range, and a tick time that fits.
Where it meets the invariant, the state meets all but the clauses on the mode. -/
def State.asAuto (s : State) : State := setPid { s.pid with mode := s.cfg.modes.pidAuto } s

theorem State.Inv.auto_ne_off {s : State} (h : s.Inv) : s.cfg.modes.pidAuto ≠ s.cfg.modes.pidOff :=
  (Config.sound_pidModes h.config).2.1.symm

theorem State.Inv.asAuto {s : State} (h : s.Inv) : s.asAuto.Inv :=
  { h with
    modeLegal := by simp [State.asAuto, ModeCodes.pid]
    freshOutsideAuto := fun hne => absurd rfl hne
    offIsZero := fun hoff => absurd hoff h.auto_ne_off }

namespace State.Inv

variable {s : State} (h : s.asAuto.Inv)

include h

/-! ### Up to the PID update -/

/-- A staged Cv is clamped before it is written (40_pid.md R102). -/
theorem asAuto_applyPending : (applyPending s).asAuto.Inv :=
  { h with
    cvInRange := by
      simp only [State.asAuto, Machine.applyPending, setPend_pid, setPend_cfg, setPid_pid, setPid_cfg, drainPending_cv]
      split
      · split
        · exact clampPercent_inRange _ _
        · exact h.cvInRange
      · exact h.cvInRange
    rangeValid := drainPending_valid (Config.sound_defaultRange h.config) _ _ h.rangeValid
    offIsZero := fun hoff => absurd hoff h.auto_ne_off }

theorem asAuto_outerFallback : (outerFallback s).asAuto.Inv := by
  rw [outerFallback_eq]
  exact { h with }

/-- An arm leaves Cv or writes a clamped output (41_arbiter.md R134). -/
theorem asAuto_outerArm (pv : F32) : (outerArm pv s).asAuto.Inv := by
  rcases outerArm_cases pv s with he | he | he | he | he <;> rw [he]
  · exact { h with }
  · exact { h with }
  · exact { h with }
  · exact { h with cvInRange := clampPercent_inRange _ _, offIsZero := fun hoff => absurd hoff h.auto_ne_off }
  · exact { h with cvInRange := clampPercent_inRange _ _, offIsZero := fun hoff => absurd hoff h.auto_ne_off }

theorem asAuto_recordPv (pv : F32) : (recordPv pv s).asAuto.Inv := { h with }

/-! ### The PID update, 40_pid.md R103 to R112 -/

theorem updateOff (hmode : s.pid.mode = s.cfg.modes.pidOff) (pv : F32) : (updateOff pv s).1.Inv :=
  { h with
    cvInRange := inPercentRange_zero _
    modeLegal := by simp [Machine.updateOff, hmode, ModeCodes.pid]
    freshOutsideAuto := fun _ => rfl
    offIsZero := fun _ => rfl
    timesFit := ⟨Nat.two_pow_pos _, h.timesFit.2⟩ }

theorem updateManual (hmode : s.pid.mode = s.cfg.modes.pidManual) (pv : F32) : (updateManual pv s).1.Inv :=
  { h with
    modeLegal := by simp [Machine.updateManual, hmode, ModeCodes.pid]
    freshOutsideAuto := fun _ => rfl
    offIsZero := fun hoff => absurd (hoff.symm.trans hmode) (Config.sound_pidModes h.config).1
    timesFit := ⟨Nat.two_pow_pos _, h.timesFit.2⟩ }

/-- In Auto the update leaves Cv or writes a clamped one (40_pid.md R106 to R108). -/
theorem updateAuto (hmode : s.pid.mode = s.cfg.modes.pidAuto) {now : Nat} (hnow : timeFits s.cfg now = true) :
    (updateAuto now s).1.Inv := by
  have hs : s.Inv :=
    { h with
      modeLegal := hmode ▸ h.modeLegal
      freshOutsideAuto := fun hne => absurd hmode hne
      offIsZero := fun hoff => absurd (hmode.symm.trans hoff) h.auto_ne_off }
  have htime : now < 2 ^ s.cfg.timeW := of_decide_eq_true hnow
  rcases updateAuto_cases now s with he | ⟨-, he⟩ <;> rw [he]
  · exact { hs with
      freshOutsideAuto := fun hne => absurd hmode hne
      timesFit := ⟨htime, h.timesFit.2⟩ }
  · exact { hs with
      cvInRange := clampPercent_inRange _ _
      freshOutsideAuto := fun hne => absurd hmode hne
      offIsZero := fun hoff => absurd (hmode.symm.trans hoff) h.auto_ne_off
      timesFit := ⟨htime, h.timesFit.2⟩ }

/-- The PID update restores what the invariant says of the mode (10_state.md R24, 40_pid.md R104, R105). -/
theorem modeArm (pv : F32) {now : Nat} (hnow : timeFits s.cfg now = true) : (modeArm pv now s).1.Inv := by
  rcases modeArm_cases pv now s with ⟨hm, he⟩ | ⟨hm, he⟩ | ⟨hm, he⟩ | ⟨-, he⟩ <;> rw [he]
  · exact updateOff h hm pv
  · exact updateManual h hm pv
  · exact updateAuto h hm hnow
  · have hoff : (setPid { s.pid with mode := s.cfg.modes.pidOff } s).asAuto.Inv := { h with }
    exact updateOff hoff rfl pv

end State.Inv

/-! ### TICK -/

theorem State.Inv.runTick {s : State} (h : s.Inv) (pv : F32) {now : Nat} (hnow : timeFits s.cfg now = true) :
    (runTick pv now s).Inv := by
  have hcfg : (Machine.recordPv pv (arbitrate pv s)).cfg = s.cfg := by
    obtain ⟨_, _, he⟩ := arbitrate_frame pv s
    rw [he]
    rfl
  have hdriven := h.asAuto.asAuto_applyPending.asAuto_outerFallback.asAuto_outerArm pv
  exact ((hdriven.asAuto_recordPv pv).modeArm pv (hcfg ▸ hnow)).returning _

/-! ### Every host operation -/

theorem State.Inv.run {s : State} (h : s.Inv) {i : Instr} (hi : i.space = .host) (hwf : i.wf s.cfg = true) :
    (run i s).Inv := by
  cases i with
  | reset => exact h.runReset
  | rx bytes => exact (h.setInQ _).returning _
  | poll now => exact h.runPoll hwf
  | tick pv now => exact h.runTick pv hwf
  | ok now => exact h.returning _
  | readCounters => exact h.returning _
  | txDrain => exact { h with }
  | _ => cases hi

end Sys2Proof.Machine
end

section
/-! PROOFS. No operation reads a counter to decide anything (10_state.md R31): from states that differ in their counters alone,
each part of each operation leads to such states again. -/

namespace Sys2Proof.Machine

/-- From states that differ in their counters alone, the operation leads to states that differ in their counters alone. -/
def Blind (op : State → State) : Prop := ∀ s n, ∃ n', op { s with cnt := n } = { op s with cnt := n' }

theorem Blind.comp {f g : State → State} (hg : Blind g) (hf : Blind f) : Blind fun s => g (f s) := by
  intro s n
  obtain ⟨n', he⟩ := hf s n
  obtain ⟨n'', he'⟩ := hg (f s) n'
  exact ⟨n'', (congrArg g he).trans he'⟩

theorem raise_blind (e : ErrorClass) (k : Nat) : Blind (raise e k) := by
  intro s n
  rw [raise_frame, raise_frame e k s]
  exact ⟨_, rfl⟩

theorem returning_blind (r : OpResult) : Blind (returning r) := fun _ n => ⟨n, rfl⟩

/-! ### POLL -/

theorem drainByte_blind (b : Byte) : Blind (drainByte · b) := by
  intro s n
  unfold drainByte
  dsimp only
  split_ifs <;> exact ⟨_, rfl⟩

theorem foldl_drainByte_blind (bytes : List Byte) : Blind (bytes.foldl drainByte) := by
  induction bytes with
  | nil => exact fun _ n => ⟨n, rfl⟩
  | cons b rest ih => exact ih.comp (drainByte_blind b)

theorem drain_blind : Blind drain := by
  intro s n
  obtain ⟨n', he⟩ := foldl_drainByte_blind s.tr.inQ s n
  exact ⟨n', congrArg (setInQ []) he⟩

theorem resyncDrop_blind (k : Nat) : Blind (resyncDrop k) := by
  intro s n
  unfold resyncDrop
  split_ifs
  · exact ⟨_, rfl⟩
  · exact ⟨n, rfl⟩

theorem scan_blind : Blind fun s => (scan s).1 := by
  intro s n
  dsimp only [scan]
  split
  · exact resyncDrop_blind _ s n
  · exact resyncDrop_blind _ s n

theorem scan_found (s : State) (n : Counters) : (scan { s with cnt := n }).2 = (scan s).2 := by
  dsimp only [scan]
  split <;> rfl

theorem finish_blind (req : Frame) {h : State → State × Reply} (hf : HandlerForm h) : Blind fun s => finish req (h s) := by
  intro s n
  cases hf with
  | answers reply hr =>
    dsimp only [finish]
    rw [hr]
    split
    · exact ⟨n, rfl⟩
    · have hrespond : Blind (respond req []) := fun _ n => ⟨n, rfl⟩
      exact hrespond.comp (raise_blind _ 0) s n
  | stages => exact ⟨n, rfl⟩
  | writes => exact ⟨n, rfl⟩

theorem dispatchFrame_blind (f : Frame) : Blind (dispatchFrame f) := by
  intro s n
  rw [dispatchFrame_eq_finish, dispatchFrame_eq_finish]
  exact finish_blind _ (handle_form _) s n

theorem pollAligned_blind (now : Nat) : Blind (pollAligned now) := by
  intro s n
  unfold pollAligned
  dsimp only
  split_ifs
  · exact ⟨n, rfl⟩
  · exact ⟨_, rfl⟩
  · exact ⟨n, rfl⟩
  · have hextract : Blind (extract now (declaredLength s.tr.rx)) := fun _ n => ⟨n, rfl⟩
    exact ((returning_blind _).comp ((dispatchFrame_blind _).comp hextract)) s n

theorem runPoll_blind (now : Nat) : Blind (runPoll now) := by
  intro s n
  have hscanned : Blind fun s => (scan (drain s)).1 := scan_blind.comp drain_blind
  have hfound : (scan (drain { s with cnt := n })).2 = (scan (drain s)).2 := by
    obtain ⟨n', he⟩ := drain_blind s n
    rw [he]
    exact scan_found (drain s) n'
  dsimp only [runPoll]
  rw [hfound]
  split
  · exact (pollAligned_blind now).comp hscanned s n
  · exact (returning_blind _).comp hscanned s n

/-! ### TICK -/

theorem applyPending_blind : Blind applyPending := fun _ n => ⟨n, rfl⟩

theorem outerFallback_blind : Blind outerFallback := by
  intro s n
  rw [outerFallback_eq, outerFallback_eq]
  exact ⟨n, rfl⟩

theorem armProgrammedAuto_blind (pv : F32) : Blind (armProgrammedAuto pv) := by
  intro s n
  unfold armProgrammedAuto
  dsimp only
  split <;> exact ⟨n, rfl⟩

theorem outerArm_blind (pv : F32) : Blind (outerArm pv) := by
  intro s n
  unfold outerArm
  dsimp only
  split_ifs
  · exact ⟨n, rfl⟩
  · exact ⟨n, rfl⟩
  · exact ⟨n, rfl⟩
  · exact armProgrammedAuto_blind pv s n

theorem updateAuto_blind (now : Nat) : Blind fun s => (updateAuto now s).1 := by
  intro s n
  unfold updateAuto
  dsimp only
  split_ifs <;> exact ⟨n, rfl⟩

theorem modeArm_blind (pv : F32) (now : Nat) : Blind fun s => (modeArm pv now s).1 := by
  intro s n
  unfold modeArm
  dsimp only
  split_ifs
  · exact ⟨n, rfl⟩
  · exact ⟨n, rfl⟩
  · exact updateAuto_blind now s n
  · exact ⟨n, rfl⟩

theorem runTick_blind (pv : F32) (now : Nat) : Blind (runTick pv now) := by
  have harbitrate : Blind (arbitrate pv) := (outerArm_blind pv).comp (outerFallback_blind.comp applyPending_blind)
  have hrecord : Blind (recordPv pv) := fun _ n => ⟨n, rfl⟩
  have hreturn : Blind fun s => returning (.tick s.pid.cv) s := fun _ n => ⟨n, rfl⟩
  have heq : runTick pv now = fun s =>
      returning (.tick (modeArm pv now (recordPv pv (arbitrate pv s))).1.pid.cv)
        (modeArm pv now (recordPv pv (arbitrate pv s))).1 :=
    funext fun s => by rw [runTick, pidUpdate, modeArm_value]
  rw [heq]
  exact hreturn.comp ((modeArm_blind pv now).comp (hrecord.comp harbitrate))

/-! ### Every instruction but READ_COUNTERS -/

theorem run_blind {i : Instr} (hi : i ≠ .readCounters) : Blind (run i) := by
  by_cases hw : i.space = .wire
  · intro s n
    rw [run_of_wire hw, runWire_eq_finish hw, runWire_eq_finish hw]
    exact finish_blind _ (handle_form i) s n
  cases i with
  | reset => exact fun _ _ => ⟨_, rfl⟩
  | rx => exact fun _ n => ⟨n, rfl⟩
  | poll now => exact runPoll_blind now
  | tick pv now => exact runTick_blind pv now
  | ok => exact fun _ n => ⟨n, rfl⟩
  | readCounters => exact absurd rfl hi
  | txDrain => exact fun _ n => ⟨n, rfl⟩
  | _ => exact absurd rfl hw

end Sys2Proof.Machine
end

section
/-! PROOFS. Which handler's selection a key goes to (30_encoding.md R86 to R89). -/

namespace Sys2Proof

theorem Config.wf_cmdIds {c : Config} (h : c.wf = true) : c.cmdIds.all.Nodup := by
  simp only [Config.wf, Config.codesDistinct, Bool.and_eq_true, decide_eq_true_eq] at h
  obtain ⟨⟨-, ⟨⟨⟨hids, -⟩, -⟩, -⟩⟩, -⟩ := h
  exact hids

/-- No id is in both command sets. -/
theorem CommandIds.disjoint_of_nodup {k : CommandIds} (hk : k.all.Nodup) : k.pid.Disjoint k.controller :=
  (List.nodup_append'.1 hk).2.2

theorem selectPid_of_not_mem {k : CommandIds} {f : Frame} (h : f.cmdId ∉ k.pid) :
    selectPid k f = .unknownCmd f.tag f.cmdId f.flags f.payload := by
  simp only [CommandIds.pid, List.mem_cons, List.not_mem_nil, or_false, not_or] at h
  simp [selectPid, h]

/-- An id that is not the controller's own falls through to the PID handler (43_commands.md R181). -/
theorem selectController_of_not_mem {k : CommandIds} {f : Frame} (h : f.cmdId ∉ k.controller) :
    selectController k f = selectPid k f := by
  simp only [CommandIds.controller, List.mem_cons, List.not_mem_nil, or_false, not_or] at h
  simp [selectController, h]

theorem select_of_unbound {c : Config} {f : Frame} (h : c.handlerOf f.objectId = none) :
    select c f = .noHandler f.seq f.objectId f.cmdId f.flags f.payload := by
  simp [select, h]

theorem select_of_controller {c : Config} {f : Frame} (h : c.handlerOf f.objectId = some .controller) :
    select c f = selectController c.cmdIds f := by
  simp [select, h]

theorem select_of_pid {c : Config} {f : Frame} (h : c.handlerOf f.objectId = some .pid) :
    select c f = selectPid c.cmdIds f := by
  simp [select, h]

/-- Under either handler an id that is not the controller's own goes to the PID handler's selection. -/
theorem select_of_bound {c : Config} {f : Frame} {h : Handler} (hh : c.handlerOf f.objectId = some h)
    (hcmd : f.cmdId ∉ c.cmdIds.controller) : select c f = selectPid c.cmdIds f := by
  cases h with
  | controller => rw [select_of_controller hh, selectController_of_not_mem hcmd]
  | pid => exact select_of_pid hh

end Sys2Proof
end

section
/-! PROOFS. The obligations of 10_state.md. -/

open Sys2Proof Sys2Proof.Machine

/-- Settles O14: a step waits, or runs a decoded operation, whose time fits, and every operation keeps the invariant. -/
theorem stepKeepsTheInvariant : Obligations.StepKeepsTheInvariant := by
  intro s t h hstep
  rcases step_next hstep with ⟨-, rfl⟩ | ⟨record, rest, i, -, hdec, hexec⟩
  · exact h
  · obtain ⟨-, rfl⟩ := exec_eq_next_iff.1 hexec
    obtain ⟨hhost, hwf⟩ := decodeOp_sound hdec
    exact (h.setOps rest).run hhost hwf

/-- Settles O11, by the operation: it writes what its frame lemma names, and nothing else. -/
theorem accessMatrixHolds : Obligations.AccessMatrixHolds := by
  intro i s t hi hexec
  obtain ⟨-, rfl⟩ := exec_eq_next_iff.1 hexec
  cases i with
  | reset => simp
  | rx bytes => simp [run, runRx]
  | poll now =>
    obtain ⟨_, _, _, _, _, _, _, he, hin, hout⟩ := runPoll_frame now s
    simp [run, he, hin, hout]
  | tick pv now =>
    obtain ⟨_, _, _, he⟩ := runTick_frame pv now s
    simp +contextual [run, he]
  | ok => simp [run, runOk]
  | readCounters => simp [run, runReadCounters]
  | txDrain => simp [run, runTxDrain]
  | _ => cases hi

/-- Settles O51: every operation but READ_COUNTERS is blind to the counters, and whether it runs does not depend on them. -/
theorem countersSteerNothing : Obligations.CountersSteerNothing := by
  intro i s t n hi hexec
  obtain ⟨hlive, rfl⟩ := exec_eq_next_iff.1 hexec
  obtain ⟨n', he⟩ := run_blind hi s n
  exact ⟨n', exec_eq_next_iff.2 ⟨hlive, he⟩⟩

/-- Settles O3: the ids are distinct, so of a handler's tests the first that answers is the id's own, and no PID id is taken
by the controller's. -/
theorem keySelectsItsRow : Obligations.KeySelectsItsRow := by
  refine ⟨fun c q obj cmd g p hu => select_of_unbound (handlerOf_unbound hu), fun c q obj cmd g p h hc hb => ?_,
    rfl, rfl⟩
  have hall := Config.wf_cmdIds hc
  have hbound := handlerOf_bound hb
  have hpid : ∀ id ∈ c.cmdIds.pid, select c ⟨q, obj, id, g, p⟩ = selectPid c.cmdIds ⟨q, obj, id, g, p⟩ :=
    fun id hid => select_of_bound hbound (CommandIds.disjoint_of_nodup hall hid)
  have hpids : c.cmdIds.pid.Nodup := hall.of_append_left
  have hctrls : c.cmdIds.controller.Nodup := hall.of_append_right
  simp only [CommandIds.pid, List.nodup_cons, List.mem_cons, List.not_mem_nil, or_false, not_or] at hpids
  simp only [CommandIds.controller, List.nodup_cons, List.mem_cons, List.not_mem_nil, or_false, not_or] at hctrls
  refine ⟨?_, ?_, ?_, ?_, ?_, ?_, ?_, ?_, ?_, ?_, ?_⟩
  iterate 9
    rw [hpid _ (by simp [CommandIds.pid])]
    simp [selectPid, hpids, eq_comm]
  · rintro rfl
    refine ⟨?_, ?_, ?_, ?_, fun hnp hnc => ?_⟩
    iterate 4
      rw [select_of_controller hbound]
      simp [selectController, hctrls, eq_comm]
    exact (select_of_bound hbound hnc).trans (selectPid_of_not_mem hnp)
  · rintro rfl hnp
    exact (select_of_pid hbound).trans (selectPid_of_not_mem hnp)

/-- Settles O10: no operation writes the configuration or undoes the construction. -/
theorem configurationIsStatic : Obligations.ConfigurationIsStatic := by
  intro s t hstep
  rcases step_next hstep with ⟨-, rfl⟩ | ⟨record, rest, i, -, -, hexec⟩
  · exact ⟨rfl, id⟩
  · obtain ⟨-, rfl⟩ := exec_eq_next_iff.1 hexec
    exact run_cfg_live i { s with ops := rest }

end

section
/-! PROOFS. What a step does, by what waits in the host's queue (10_state.md R34, 20_memory.md R58). -/

namespace Sys2Proof.Machine

theorem fetch_of_ops_nil {s : State} (h : s.ops = []) : fetch s = none := by
  simp [fetch, h]

theorem fetch_of_ops_cons {s : State} {record : List Byte} {rest : List (List Byte)} (h : s.ops = record :: rest) :
    fetch s = some (record, { s with ops := rest }) := by
  simp [fetch, h]

theorem step_of_ops_nil {s : State} (h : s.ops = []) : step s = .next s := by
  simp [step, fetch_of_ops_nil h, idle]

theorem step_of_instr {s : State} {record : List Byte} {rest : List (List Byte)} {i : Instr}
    (hops : s.ops = record :: rest) (hdec : decodeOp s.cfg record = .instr i) :
    step s = exec i { s with ops := rest } := by
  simp [step, fetch_of_ops_cons hops, hdec]

theorem step_of_rejected {s : State} {record : List Byte} {rest : List (List Byte)} {why : DecodeError}
    (hops : s.ops = record :: rest) (hdec : decodeOp s.cfg record = .rejected why) :
    step s = .refused (.undecodable why) := by
  simp [step, fetch_of_ops_cons hops, hdec]

end Sys2Proof.Machine
end

section
/-! PROOFS. The obligations of 20_memory.md. -/

open Sys2Proof Sys2Proof.Machine

/-- Settles O6, by what waits: a record of an instruction, a record of none, or no record. -/
theorem stepRunsTheDecodedOperation : Obligations.StepRunsTheDecodedOperation :=
  ⟨fun _ _ _ _ => step_of_instr, fun _ _ _ _ => step_of_rejected, fun _ => step_of_ops_nil⟩

end

section
/-! PROOFS. The decoder undoes the encoder, and what bytes it accepts (30_encoding.md R70, R75 to R78, R86 to R91). -/

namespace Sys2Proof

theorem Config.wf_bounds {c : Config} (h : c.wf = true) : headerSize ≤ c.txCap ∧ c.rxCap ≤ 65535 := by
  simp only [Config.wf, Config.bounds, Bool.and_eq_true, decide_eq_true_eq] at h
  obtain ⟨⟨⟨⟨⟨⟨-, htx⟩, hrx⟩, -⟩, -⟩, -⟩, -⟩ := h
  exact ⟨htx, hrx⟩

/-! ### Host operations -/

/-- The decoder reads back the record of a host operation whose time fits. -/
theorem decodeOp_encode {c : Config} {i : Instr} (hhost : i.space = .host) (hi : i.wf c = true) :
    decodeOp c (encode c i) = .instr i := by
  cases i with
  | reset | rx | readCounters | txDrain => rfl
  | poll now | ok now =>
    simp [encode, decodeOp, Op.reset, Op.rx, Op.poll, Op.tick, Op.ok, readTime_leBytes c now hi]
  | tick pv now =>
    simp only [encode, decodeOp, Op.reset, Op.rx, Op.poll, Op.tick, BitVec.reduceEq, reduceIte, lef32, le32,
      List.cons_append, List.nil_append, f32le, u32le_le32, readTime_leBytes c now hi]
  | _ => cases hhost

theorem decodeOp_of_unknown {code : Byte} (h : 6 < code.toNat) (c : Config) (args : List Byte) :
    decodeOp c (code :: args) = .rejected (.unknownOperation code) := by
  have hne : ∀ op : Byte, op.toNat ≤ 6 → code ≠ op := by
    rintro op hop rfl
    omega
  simp [decodeOp, hne]

/-! ### Frames -/

/-- The encoder writes a wire command as the frame that is read back from its bytes. -/
theorem encode_eq_frameBytes {i : Instr} (hi : i.space = .wire) (c : Config) :
    encode c i = frameBytes c (frameOfBytes (encode c i)) := by
  cases i with
  | reset | rx | poll | tick | ok | readCounters | txDrain => cases hi
  | _ => simp only [encode, frameOfBytes_frameBytes]

theorem frameBytes_header (c : Config) (f : Frame) :
    ((frameBytes c f).drop 6).take 4 = [f.seq, f.objectId, f.cmdId, f.flags] := by
  simp [frameBytes, le32, le16]

theorem encode_selectPid (c : Config) (f : Frame) : encode c (selectPid c.cmdIds f) = frameBytes c f := by
  obtain ⟨seq, obj, cmd, flags, payload⟩ := f
  fun_cases selectPid c.cmdIds ⟨seq, obj, cmd, flags, payload⟩ <;> simp_all [encode]

theorem encode_selectController (c : Config) (f : Frame) :
    encode c (selectController c.cmdIds f) = frameBytes c f := by
  obtain ⟨seq, obj, cmd, flags, payload⟩ := f
  fun_cases selectController c.cmdIds ⟨seq, obj, cmd, flags, payload⟩ with
  | case5 => exact encode_selectPid c _
  | _ => simp_all [encode]

/-- What a frame selects is encoded as that frame, whatever the frame is. -/
theorem encode_select (c : Config) (f : Frame) : encode c (select c f) = frameBytes c f := by
  unfold select
  split
  · rfl
  · exact encode_selectController c f
  · exact encode_selectPid c f

/-- The bytes the decoder of frames accepts, and the instruction it reads from them (30_encoding.md R77). -/
theorem decodeFrame_eq_instr_iff {c : Config} {b : List Byte} {i : Instr} :
    decodeFrame c b = .instr i ↔
      (b.take 4 = le32 c.magic ∧ headerSize ≤ declaredLength b ∧ declaredLength b ≤ c.rxCap ∧
        b.length = declaredLength b) ∧ select c (frameOfBytes b) = i := by
  unfold decodeFrame
  split_ifs with hshort hmagic hlen hcount
  · simp only [false_iff]
    omega
  · simp [hmagic]
  · simp only [false_iff]
    omega
  · simp [hcount]
  · simp only [Decoded.instr.injEq, iff_and_self]
    exact fun _ => ⟨by simpa using hmagic, by omega, by omega, by omega⟩

end Sys2Proof
end

section
/-! PROOFS. A well-formed command is the row its own frame selects (30_encoding.md R86 to R89). -/

namespace Sys2Proof

theorem handlers_getElem?_of_handlerOf {c : Config} {obj : Byte} {h : Handler} (hb : c.handlerOf obj = some h) :
    c.handlers[obj.toNat]? = some (some h) := by
  rw [Config.handlerOf, List.getD_eq_getElem?_getD] at hb
  rcases hslot : c.handlers[obj.toNat]? with _ | slot <;> simp_all

/-- An object that knows one of the controller's own ids is bound to the controller handler. -/
theorem handlerOf_of_knows_controller {c : Config} (hc : c.wf = true) {obj cmd : Byte}
    (hcmd : cmd ∈ c.cmdIds.controller) (hk : knows c obj cmd = true) : c.handlerOf obj = some .controller := by
  obtain ⟨h, hb, hmem⟩ := knows_iff.1 hk
  cases h with
  | controller => exact hb
  | pid => exact absurd hcmd (CommandIds.disjoint_of_nodup (Config.wf_cmdIds hc) hmem)

theorem mem_ids_iff {k : CommandIds} {h : Handler} {cmd : Byte} :
    cmd ∈ h.ids k ↔ cmd ∈ k.pid ∨ h = .controller ∧ cmd ∈ k.controller := by
  cases h <;> simp [Handler.ids, CommandIds.all]

/-- An object whose handler does not know an id selects UNKNOWN_CMD (30_encoding.md R89). -/
theorem select_of_not_knows {c : Config} {f : Frame} {h : Handler} (hb : c.handlerOf f.objectId = some h)
    (hcmd : f.cmdId ∉ h.ids c.cmdIds) : select c f = .unknownCmd f.tag f.cmdId f.flags f.payload := by
  cases h with
  | controller =>
    obtain ⟨hpid, hctrl⟩ := not_or.1 (mt List.mem_append.2 hcmd)
    exact (select_of_bound hb hctrl).trans (selectPid_of_not_mem hpid)
  | pid => exact (select_of_pid hb).trans (selectPid_of_not_mem hcmd)

theorem select_frameOfBytes_encode {c : Config} (hc : c.wf = true) {i : Instr} (hw : i.space = .wire)
    (hi : i.wf c = true) : select c (frameOfBytes (encode c i)) = i := by
  cases i with
  | reset | rx | poll | tick | ok | readCounters | txDrain => cases hw
  | readStatus tag g p | setSp tag g p | setCv tag g p | setKp tag g p | setKi tag g p | setKd tag g p
  | setPvMin tag g p | setPvMax tag g p | setMode tag g p =>
    obtain ⟨h, hb, -⟩ := knows_iff.1 ((Bool.and_eq_true_iff.1 hi).2)
    obtain ⟨h0, h1, h2, h3, h4, h5, h6, h7, h8, -⟩ :=
      keySelectsItsRow.2.1 c tag.seq tag.objectId 0#8 g p h hc (handlers_getElem?_of_handlerOf hb)
    simp only [encode, frameOfBytes_frameBytes, h0, h1, h2, h3, h4, h5, h6, h7, h8]
  | readComposite tag g p | setOuterMode tag g p | setCtrlSp tag g p | setInnerMode tag g p =>
    have hb := handlerOf_of_knows_controller hc (by simp [CommandIds.controller]) ((Bool.and_eq_true_iff.1 hi).2)
    obtain ⟨-, -, -, -, -, -, -, -, -, hctrl, -⟩ :=
      keySelectsItsRow.2.1 c tag.seq tag.objectId 0#8 g p .controller hc (handlers_getElem?_of_handlerOf hb)
    obtain ⟨h0, h1, h2, h3, -⟩ := hctrl rfl
    simp only [encode, frameOfBytes_frameBytes, h0, h1, h2, h3]
  | noHandler q obj cmd g p =>
    rw [encode, frameOfBytes_frameBytes, select_of_unbound]
    simpa using (Bool.and_eq_true_iff.1 hi).2
  | unknownCmd tag cmd g p =>
    simp only [Instr.wf, Bool.and_eq_true, Option.isSome_iff_exists, Bool.not_eq_true', ← Bool.not_eq_true,
      knows_iff, not_exists, not_and] at hi
    obtain ⟨⟨-, h, hb⟩, hunknown⟩ := hi
    rw [encode, frameOfBytes_frameBytes, select_of_not_knows hb (hunknown h hb)]

theorem payloadFits_of_wf {c : Config} {i : Instr} (hw : i.space = .wire) (hi : i.wf c = true) :
    payloadFits c (frameOfBytes (encode c i)).payload = true := by
  cases i with
  | reset | rx | poll | tick | ok | readCounters | txDrain => cases hw
  | _ =>
    simp only [Instr.wf, Bool.and_eq_true] at hi
    simp only [encode, frameOfBytes_frameBytes, hi]

end Sys2Proof
end

section
/-! PROOFS. Dispatch answers one frame around the reply of the handler (42_transport.md R158, R160, R161). -/

namespace Sys2Proof.Machine

open Sys2Proof.Claim

/-- A wire command on a constructed block is its handler's reply to its own frame. -/
theorem exec_wire {i : Instr} (hw : i.space = .wire) {s : State} (hlive : s.live = true) :
    exec i s = .next (finish (frameOfBytes (encode s.cfg i)) (handle i s)) := by
  rw [exec_eq_next_iff, run_of_wire hw, runWire_eq_finish hw]
  exact ⟨.inr hlive, rfl⟩

theorem exec_select (f : Frame) {s : State} (hlive : s.live = true) :
    exec (select s.cfg f) s = .next (finish f (handle (select s.cfg f) s)) := by
  rw [exec_wire (select_space s.cfg f) hlive, encode_select, frameOfBytes_frameBytes]

/-- A failure is counted and answered with an empty payload. -/
theorem finish_failed (why : ErrorClass) (req : Frame) (s : State) :
    finish req (s, .failed why) = answered (raise why 0 s) req.seq req.objectId req.cmdId req.flags [] := by
  simp only [finish, respond, responseBytes, List.take_nil]
  rfl

/-- A reply becomes one response frame, whose header is the request's and whose payload fits `TX_CAP`; what else happens does
not depend on the request. -/
theorem finish_eq_answered (done : State × Reply) :
    ∃ t out, t.tr = done.1.tr ∧ t.cfg = done.1.cfg ∧ out.length ≤ done.1.cfg.txCap - headerSize ∧
      ∀ req : Frame, finish req done = answered t req.seq req.objectId req.cmdId req.flags out := by
  obtain ⟨s, reply⟩ := done
  cases reply with
  | done buf => exact ⟨s, buf.take (s.cfg.txCap - headerSize), rfl, rfl, List.length_take_le .., fun _ => rfl⟩
  | failed why => exact ⟨raise why 0 s, [], raise_tr .., raise_cfg .., Nat.zero_le _, (finish_failed why · s)⟩

theorem HandlerForm.tr_cfg {h : State → State × Reply} (hf : HandlerForm h) (s : State) :
    (h s).1.tr = s.tr ∧ (h s).1.cfg = s.cfg := by
  cases hf <;> exact ⟨rfl, rfl⟩

/-! ### A payload of the wrong width, 43_commands.md R183 -/

theorem withFloat_of_length_ne {p : List Byte} (hp : p.length ≠ 4) (write : F32 → State → State) (s : State) :
    withFloat write p s = (s, .failed .payload) := by
  rcases withFloat_cases write p s with ⟨_, _, _, _, rfl, -⟩ | ⟨-, h⟩
  · exact absurd rfl hp
  · exact h

theorem withByte_of_length_ne {p : List Byte} (hp : p.length ≠ 1) (write : Byte → State → State) (s : State) :
    withByte write p s = (s, .failed .payload) := by
  rcases withByte_cases write p s with ⟨_, rfl, -⟩ | ⟨-, h⟩
  · exact absurd rfl hp
  · exact h

/-- A set command whose payload is not exactly its width fails with nothing written. -/
theorem handle_of_length_ne_width {i : Instr} {c : Config} (hset : payloadWidth i ≠ 0)
    (hlen : (frameOfBytes (encode c i)).payload.length ≠ payloadWidth i) (s : State) :
    handle i s = (s, .failed .payload) := by
  cases i with
  | reset | rx | poll | tick | ok | readCounters | txDrain | readStatus | readComposite | noHandler | unknownCmd =>
    exact absurd rfl hset
  | setSp | setCv | setKp | setKi | setKd | setPvMin | setPvMax | setCtrlSp =>
    rw [encode, frameOfBytes_frameBytes] at hlen
    rw [handle]
    exact withFloat_of_length_ne hlen _ s
  | setMode | setOuterMode | setInnerMode =>
    rw [encode, frameOfBytes_frameBytes] at hlen
    exact withByte_of_length_ne hlen _ s

theorem handle_select_of_length_ne_width {c : Config} {f : Frame} {width : Nat} (hwidth : payloadWidth (select c f) = width)
    (hset : width ≠ 0) (hlen : f.payload.length ≠ width) (s : State) :
    handle (select c f) s = (s, .failed .payload) := by
  subst hwidth
  exact handle_of_length_ne_width (c := c) hset (by rwa [encode_select, frameOfBytes_frameBytes]) s

/-- The width of the payload a known set command takes (30_encoding.md R87, R88). -/
theorem payloadWidth_select {c : Config} (hc : c.wf = true) {q obj cmd g : Byte} {p : List Byte}
    (hk : knows c obj cmd = true) :
    (cmd ∈ [c.cmdIds.setSp, c.cmdIds.setCv, c.cmdIds.setKp, c.cmdIds.setKi, c.cmdIds.setKd, c.cmdIds.setPvMin,
      c.cmdIds.setPvMax, c.cmdIds.setCtrlSp] → payloadWidth (select c ⟨q, obj, cmd, g, p⟩) = 4) ∧
    (cmd ∈ [c.cmdIds.setMode, c.cmdIds.setOuterMode, c.cmdIds.setInnerMode] →
      payloadWidth (select c ⟨q, obj, cmd, g, p⟩) = 1) := by
  obtain ⟨h, hb, -⟩ := knows_iff.1 hk
  obtain ⟨-, hsp, hcv, hkp, hki, hkd, hmin, hmax, hmode, hctrl, -⟩ :=
    keySelectsItsRow.2.1 c q obj cmd g p h hc (handlers_getElem?_of_handlerOf hb)
  have own (hcmd : cmd ∈ c.cmdIds.controller) := hctrl
    (Option.some.inj (hb.symm.trans (handlerOf_of_knows_controller hc hcmd hk)))
  simp only [List.mem_cons, List.not_mem_nil, or_false]
  constructor
  · rintro (rfl | rfl | rfl | rfl | rfl | rfl | rfl | rfl)
    · exact congrArg payloadWidth hsp
    · exact congrArg payloadWidth hcv
    · exact congrArg payloadWidth hkp
    · exact congrArg payloadWidth hki
    · exact congrArg payloadWidth hkd
    · exact congrArg payloadWidth hmin
    · exact congrArg payloadWidth hmax
    · obtain ⟨-, -, hctrlSp, -⟩ := own (by simp [CommandIds.controller])
      exact congrArg payloadWidth hctrlSp
  · rintro (rfl | rfl | rfl)
    · exact congrArg payloadWidth hmode
    · obtain ⟨-, houter, -⟩ := own (by simp [CommandIds.controller])
      exact congrArg payloadWidth houter
    · obtain ⟨-, -, -, hinner, -⟩ := own (by simp [CommandIds.controller])
      exact congrArg payloadWidth hinner

/-! ### What the flags and the sequence byte leave alone, 30_encoding.md R80, R81 -/

section
variable {f f' : Frame} (hcmd : f.cmdId = f'.cmdId) (hp : f.payload = f'.payload)
include hcmd hp

theorem handle_selectPid_congr (k : CommandIds) : handle (selectPid k f) = handle (selectPid k f') := by
  simp only [selectPid, apply_ite handle, hcmd, hp]
  rfl

theorem handle_selectController_congr (k : CommandIds) :
    handle (selectController k f) = handle (selectController k f') := by
  simp only [selectController, apply_ite handle, hcmd, hp, handle_selectPid_congr hcmd hp]
  rfl

/-- The handler a frame reaches, and what it does there, depend on the object, the command and the payload only. -/
theorem handle_select_congr (hobj : f.objectId = f'.objectId) (c : Config) :
    handle (select c f) = handle (select c f') := by
  unfold select
  rw [hobj]
  split
  · rfl
  · exact handle_selectController_congr hcmd hp _
  · exact handle_selectPid_congr hcmd hp _

end

end Sys2Proof.Machine
end

section
/-! PROOFS. The obligations of 30_encoding.md. -/

open Sys2Proof Sys2Proof.Machine Sys2Proof.Claim

/-- Settles O1, by the space: a record is read back argument by argument, and a frame selects its own row. -/
theorem decodeEncodeAgree : Obligations.DecodeEncodeAgree := by
  intro c i hc hi
  obtain ⟨-, hrx⟩ := Config.wf_bounds hc
  cases hspace : i.space with
  | host => exact decodeOp_encode hspace hi
  | wire =>
    calc decodeFrame c (encode c i)
      _ = decodeFrame c (frameBytes c (frameOfBytes (encode c i))) := by rw [← encode_eq_frameBytes hspace]
      _ = .instr (select c (frameOfBytes (encode c i))) := decodeFrame_frameBytes hrx (payloadFits_of_wf hspace hi)
      _ = .instr i := by rw [select_frameOfBytes_encode hc hspace hi]

/-- Settles O2: the decoder's tests are these, and the frame that passes them always selects an instruction. -/
theorem frameDecodesExactlyWhenWellFormed : Obligations.FrameDecodesExactlyWhenWellFormed := by
  intro c b
  simp only [decodeFrame_eq_instr_iff, exists_and_left, exists_eq', and_true]
  rfl

/-- Settles O4, by running the decoder on the five words. -/
theorem writtenOutWordsDecode : Obligations.WrittenOutWordsDecode :=
  ⟨rfl, rfl, rfl, rfl, rfl⟩

/-- Settles O7: the selector is compared with each of the seven codes, and is above them all. -/
theorem unknownSelectorIsRefused : Obligations.UnknownSelectorIsRefused :=
  fun s _ args _ hops hcode => step_of_rejected hops (decodeOp_of_unknown hcode s.cfg args)

/-- Settles O23: without a handler nothing runs; an id the handler does not know fails whatever its payload; and a known set
command fails by its width. -/
theorem illegalSelectionsAnswerEmpty : Obligations.IllegalSelectionsAnswerEmpty := by
  intro s q obj cmd g p hlive hc k
  rw [exec_select _ hlive]
  refine ⟨fun hunbound => ?_, fun h hslot hillegal => ?_⟩
  · rw [select_of_unbound (handlerOf_unbound hunbound)]
    exact congrArg _ (finish_failed .noHandler _ s)
  have hb : s.cfg.handlerOf obj = some h := handlerOf_bound hslot
  by_cases hcmd : cmd ∈ h.ids k
  · obtain ⟨hfloat, hbyte⟩ := payloadWidth_select (q := q) (g := g) (p := p) hc (knows_iff.2 ⟨h, hb, hcmd⟩)
    have hreply : handle (select s.cfg ⟨q, obj, cmd, g, p⟩) s = (s, .failed .payload) := by
      rcases hillegal with ⟨hpid, hctrl⟩ | ⟨hmem, hlen⟩ | ⟨hmem, hlen⟩
      · rcases mem_ids_iff.1 hcmd with hin | ⟨rfl, hin⟩
        · exact absurd hin hpid
        · exact absurd hin (hctrl.resolve_left nofun)
      · exact handle_select_of_length_ne_width (hfloat hmem) (by decide) hlen s
      · exact handle_select_of_length_ne_width (hbyte hmem) (by decide) hlen s
    rw [hreply]
    exact congrArg _ (finish_failed .payload _ s)
  · rw [select_of_not_knows hb hcmd]
    exact congrArg _ (finish_failed .unknownCmd _ s)

/-- Settles O24: the reply is one for all flags and sequence bytes, and its answer echoes the header. -/
theorem flagsAndSequenceAreOnlyEchoed : Obligations.FlagsAndSequenceAreOnlyEchoed := by
  intro s obj cmd p hlive
  obtain ⟨t, out, -, -, -, hanswer⟩ := finish_eq_answered (handle (select s.cfg ⟨0#8, obj, cmd, 0#8, p⟩) s)
  refine ⟨t, out, fun q g => ?_⟩
  have hsame := handle_select_congr (f := ⟨q, obj, cmd, g, p⟩) (f' := ⟨0#8, obj, cmd, 0#8, p⟩) rfl rfl rfl s.cfg
  rw [exec_select _ hlive, hsame, hanswer]

/-- Settles O25: the answer has the header of the frame the encoder writes, and its payload is cut to `TX_CAP`. -/
theorem wireCommandsEchoTheHeader : Obligations.WireCommandsEchoTheHeader := by
  intro i s hlive hc hw
  obtain ⟨htx, -⟩ := Config.wf_bounds hc
  obtain ⟨htr, hcfg⟩ := (handle_form i).tr_cfg s
  obtain ⟨t, out, httr, htcfg, hlen, hanswer⟩ := finish_eq_answered (handle i s)
  rw [hcfg] at htcfg hlen
  have hfits : headerSize + out.length ≤ s.cfg.txCap := by omega
  refine ⟨_, out, exec_wire hw hlive, ?_, hfits⟩
  rw [hanswer, encode_eq_frameBytes hw, frameBytes_header, frameOfBytes_frameBytes]
  simp only [answered, httr, htr, htcfg]

end

section
/-! PROOFS. What a drain leaves is `Claim.applied`, and what TICK does with it, by the outer mode and the PID mode (40_pid.md
R100 to R111). -/

namespace Sys2Proof.Machine

open Sys2Proof.Claim

/-! ### The drain, 40_pid.md R100 to R102 -/

/-- The first two slots write Sp and Cv, and Cv is then as the whole drain leaves it. -/
theorem applySetpointAndCv_eq (c : Config) (q : PidPending) (p : PidStatus) :
    applySetpointAndCv c q p = { p with sp := q.sp.getD p.sp, cv := (drainPending c q p).cv } := by
  rw [drainPending_cv, applySetpointAndCv]
  cases q.cv with
  | none => rfl
  | some v => simp only [applyManualCv]; split <;> rfl

/-- The limits' drain takes the staged pair, or the safe defaults where one was staged and the pair is no range (R101). -/
theorem applyLimits_eq (c : Config) (q : PidPending) (p : PidStatus) :
    applyLimits c q p =
      let lo := q.pvMin.getD p.pvMin
      let hi := q.pvMax.getD p.pvMax
      let reset := (q.pvMin ≠ none ∨ q.pvMax ≠ none) ∧ validRange c.num lo hi = false
      { p with pvMin := if reset then c.defaultPvMin else lo, pvMax := if reset then c.defaultPvMax else hi } := by
  have htouched : (q.pvMin.isSome || q.pvMax.isSome) = true ↔ q.pvMin ≠ none ∨ q.pvMax ≠ none := by
    rw [Bool.or_eq_true, Option.isSome_iff_ne_none, Option.isSome_iff_ne_none]
  simp only [applyLimits, htouched]
  by_cases h : q.pvMin ≠ none ∨ q.pvMax ≠ none
  · rcases checkRange_cases c { p with pvMin := q.pvMin.getD p.pvMin, pvMax := q.pvMax.getD p.pvMax } with
      ⟨hv, he⟩ | ⟨hv, he⟩
    · simp [h, hv, he]
    · simp [h, hv, he]
  · simp [h]

/-- `Claim.applied` writes out what the drain leaves. -/
theorem applyPending_eq_applied (s : State) : applyPending s = applied s := by
  rw [applyPending, drainPending, applySetpointAndCv_eq, drainPending_cv, applyLimits_eq]
  rfl

/-! ### Gains and limits, 41_arbiter.md R140 -/

/-- The registers that the arbiter and the PID update leave alone: the gains and the limits. -/
def PidStatus.tuning (p : PidStatus) : F32 × F32 × F32 × F32 × F32 := (p.kp, p.ki, p.kd, p.pvMin, p.pvMax)

theorem outerArm_tuning (pv : F32) (s : State) : (outerArm pv s).pid.tuning = s.pid.tuning := by
  rcases outerArm_cases pv s with he | he | he | he | he <;> rw [he] <;> rfl

theorem modeArm_tuning (pv : F32) (now : Nat) (s : State) : (modeArm pv now s).1.pid.tuning = s.pid.tuning := by
  rcases modeArm_cases pv now s with ⟨-, he⟩ | ⟨-, he⟩ | ⟨-, he⟩ | ⟨-, he⟩ <;> rw [he]
  · rfl
  · rfl
  · rcases updateAuto_cases now s with he | ⟨-, he⟩ <;> rw [he] <;> rfl
  · rfl

/-- Gains and limits after a TICK are those the drain leaves. -/
theorem runTick_tuning (pv : F32) (now : Nat) (s : State) :
    (runTick pv now s).pid.tuning = (applied s).pid.tuning := by
  calc (runTick pv now s).pid.tuning
    _ = (recordPv pv (arbitrate pv s)).pid.tuning := modeArm_tuning pv now _
    _ = (outerFallback (applyPending s)).pid.tuning := outerArm_tuning pv _
    _ = (applied s).pid.tuning := by rw [outerFallback_eq, applyPending_eq_applied]

/-! ### The arms, by their conditions -/

/-- Where each code names one mode, the codes of the three PID modes differ. -/
theorem Config.codesDistinct_pid {c : Config} (h : c.codesDistinct = true) :
    c.modes.pidOff ≠ c.modes.pidManual ∧ c.modes.pidOff ≠ c.modes.pidAuto ∧ c.modes.pidManual ≠ c.modes.pidAuto := by
  simp only [Config.codesDistinct, Bool.and_eq_true, decide_eq_true_eq] at h
  obtain ⟨⟨⟨-, hpid⟩, -⟩, -⟩ := h
  simpa [ModeCodes.pid, and_assoc] using hpid

/-- Where each code names one mode, OperatorAuto's is not Off's or OperatorManual's. -/
theorem Config.codesDistinct_operatorAuto {c : Config} (h : c.codesDistinct = true) :
    c.modes.outerOperatorAuto ≠ c.modes.outerOff ∧ c.modes.outerOperatorAuto ≠ c.modes.outerOperatorManual := by
  simp only [Config.codesDistinct, Bool.and_eq_true, decide_eq_true_eq] at h
  obtain ⟨⟨-, houter⟩, -⟩ := h
  simp only [ModeCodes.outer, List.nodup_cons, List.mem_cons, not_or] at houter
  obtain ⟨⟨-, hoff, -⟩, ⟨hmanual, -⟩, -⟩ := houter
  exact ⟨Ne.symm hoff, Ne.symm hmanual⟩

theorem outerArm_of_operatorAuto {s : State} (hc : s.cfg.codesDistinct = true)
    (ho : s.ctrl.outer = s.cfg.modes.outerOperatorAuto) (pv : F32) : outerArm pv s = armOperatorAuto s := by
  obtain ⟨hoff, hmanual⟩ := Config.codesDistinct_operatorAuto hc
  rw [outerArm, if_neg (ho.trans_ne hoff), if_neg (ho.trans_ne hmanual), if_pos ho]

/-- OperatorAuto puts the PID in Auto toward the arbiter's own setpoint, on what the drain leaves (41_arbiter.md R137). -/
theorem arbitrate_of_operatorAuto {s : State} (hc : s.cfg.codesDistinct = true)
    (ho : s.ctrl.outer = s.cfg.modes.outerOperatorAuto) (pv : F32) :
    arbitrate pv s = { applied s with
      ctrl := { s.ctrl with inner := s.cfg.modes.innerClosedLoop }
      pid := { (applied s).pid with mode := s.cfg.modes.pidAuto, sp := s.ctrl.sp } } := by
  have hfallback : outerFallback (applied s) = applied s := if_pos (by simp [applied, ho, ModeCodes.outer])
  rw [arbitrate, applyPending_eq_applied, hfallback]
  exact outerArm_of_operatorAuto (s := applied s) hc ho pv

/-- No arm but Auto's leaves the PID in Auto, so a PID that is in Auto after the update ran that arm. -/
theorem modeArm_eq_updateAuto {s : State} (hc : s.cfg.codesDistinct = true) {pv : F32} {now : Nat}
    (hmode : (modeArm pv now s).1.pid.mode = s.cfg.modes.pidAuto) : modeArm pv now s = updateAuto now s := by
  obtain ⟨-, hoff, hmanual⟩ := Config.codesDistinct_pid hc
  rcases modeArm_cases pv now s with ⟨hm, he⟩ | ⟨hm, he⟩ | ⟨-, he⟩ | ⟨-, he⟩
  · rw [he] at hmode
    exact absurd (hm.symm.trans hmode) hoff
  · rw [he] at hmode
    exact absurd (hm.symm.trans hmode) hmanual
  · exact he
  · rw [he] at hmode
    exact absurd hmode hoff

theorem modeArm_of_auto {s : State} (hc : s.cfg.codesDistinct = true) (hmode : s.pid.mode = s.cfg.modes.pidAuto)
    (pv : F32) (now : Nat) : modeArm pv now s = updateAuto now s := by
  obtain ⟨-, hoff, hmanual⟩ := Config.codesDistinct_pid hc
  rw [modeArm, if_neg (hmode.trans_ne hoff.symm), if_neg (hmode.trans_ne hmanual.symm), if_pos hmode]

/-- A mode that is no mode's code runs the invalid-mode arm (40_pid.md R111). -/
theorem modeArm_of_invalid {s : State} (hmode : s.pid.mode ∉ s.cfg.modes.pid) (pv : F32) (now : Nat) :
    modeArm pv now s = updateInvalid pv s := by
  simp only [ModeCodes.pid, List.mem_cons, List.not_mem_nil, or_false, not_or] at hmode
  obtain ⟨hoff, hmanual, hauto⟩ := hmode
  rw [modeArm, if_neg hoff, if_neg hmanual, if_neg hauto]

/-- With a prior tick and a positive Δt the Auto arm computes (40_pid.md R106 to R108). -/
theorem updateAuto_of_elapsed {s : State} {now : Nat} (hlast : s.hist.lastTick ≠ 0)
    (hdt : fle (deltaT s.cfg now s.hist.lastTick) (Val.ofBits s.cfg.num f32Zero) = false) :
    updateAuto now s = updateCompute (deltaT s.cfg now s.hist.lastTick) now s := by
  rw [updateAuto, if_neg hlast]
  exact if_neg (Bool.eq_false_iff.1 hdt)

/-! ### A TICK that computes -/

theorem arbitrate_cfg_hist (pv : F32) (s : State) : (arbitrate pv s).cfg = s.cfg ∧ (arbitrate pv s).hist = s.hist := by
  obtain ⟨_, _, he⟩ := arbitrate_frame pv s
  rw [he]
  exact ⟨rfl, rfl⟩

/-- The PID update inside a TICK, with a prior tick and a positive Δt, computes where it runs the Auto arm. -/
theorem runTick_of_elapsed {s : State} {pv : F32} {now : Nat}
    (harm : pidUpdate pv now (arbitrate pv s) = updateAuto now (recordPv pv (arbitrate pv s)))
    (hlast : s.hist.lastTick ≠ 0) (hdt : fle (deltaT s.cfg now s.hist.lastTick) (Val.ofBits s.cfg.num f32Zero) = false) :
    runTick pv now s =
      let u := updateCompute (deltaT s.cfg now s.hist.lastTick) now (recordPv pv (arbitrate pv s))
      returning (.tick u.2) u.1 := by
  obtain ⟨hcfg, hhist⟩ := arbitrate_cfg_hist pv s
  rw [← hhist] at hlast
  rw [← hcfg, ← hhist] at hdt ⊢
  rw [runTick, harm, updateAuto_of_elapsed (s := recordPv pv (arbitrate pv s)) hlast hdt]
  rfl

end Sys2Proof.Machine
end

section
/-! PROOFS. A value between two numbers of the format rounds between them, so the scaled error stays within 100.0 of 0.0
(40_pid.md R109) and a positive Δt stays positive (R107). -/

namespace Sys2Proof.Machine

open Sys2Proof.Claim

/-! ### Rounding between two numbers of the format -/

/-- What is no larger than a number of the format does not overflow. -/
theorem not_overflows_of_abs_le {n : NumFormat} (hn : n.wf = true) (neg : Bool) {x : ℚ} {c : F32} (hc : finite n c)
    (hx : |x| ≤ |value n c|) : ¬overflows n neg |x| := by
  have hlargest : |x| ≤ magValue n (infMagnitude n - 1) :=
    (hx.trans_eq (abs_value hn c)).trans ((magValue_strictMono n).monotone (Nat.le_sub_one_of_lt hc))
  have hinf := magValue_strictMono n (Nat.sub_lt (infMagnitude_pos hn) one_pos)
  rw [overflows_iff hn]
  cases n.rounding
  case nearestEven => exact not_le.2 (by linarith)
  case towardZero => exact id
  all_goals exact fun h => hlargest.not_gt h.2

/-- An exact value between two numbers of the format is rounded to a number between them. -/
theorem Rounded.between {n : NumFormat} (hn : n.wf = true) {x : ℚ} {neg : Bool} {r c d : F32} (h : Rounded n x neg r)
    (hc : finite n c) (hd : finite n d) (hcx : value n c ≤ x) (hxd : x ≤ value n d) :
    finite n r ∧ value n c ≤ value n r ∧ value n r ≤ value n d := by
  obtain ⟨-, hle, hinf, hfinite⟩ := h
  have hno : ¬overflows n neg |x| := by
    rcases le_total 0 x with hx | hx
    · exact not_overflows_of_abs_le hn neg hd (abs_le_abs_of_nonneg hx hxd)
    · exact not_overflows_of_abs_le hn neg hc (abs_le_abs_of_nonpos hx hcx)
  have hr : finite n r := lt_of_le_of_ne hle (mt hinf.1 hno)
  obtain ⟨hbetween, -⟩ := hfinite hr
  obtain ⟨habove, -⟩ := hbetween c hc
  obtain ⟨-, hbelow⟩ := hbetween d hd
  exact ⟨hr, not_lt.1 fun hlt => habove ⟨hlt, hcx⟩, not_lt.1 fun hlt => hbelow ⟨hxd, hlt⟩⟩

theorem notNaN_of_finite {n : NumFormat} {b : F32} (h : finite n b) : isNaN n b = false :=
  decide_eq_false (Nat.le_of_lt h).not_gt

theorem finite_of_orderKey {n : NumFormat} {b : F32} (hlo : -(infMagnitude n : Int) < orderKey b)
    (hhi : orderKey b < infMagnitude n) : finite n b := by
  unfold finite
  unfold orderKey at hlo hhi
  split_ifs at hlo hhi <;> omega

theorem finite_negBits {n : NumFormat} {b : F32} (h : finite n b) : finite n (negBits b) := by
  rwa [finite, magnitude_negBits]

theorem fle_num_iff_value_le {n : NumFormat} (hn : n.wf = true) (a b : F32) :
    fle (.num a) (.num b) = true ↔ value n a ≤ value n b := by
  rw [fle_num, decide_eq_true_eq, value_eq_keyValue hn, value_eq_keyValue hn, (keyValue_strictMono n).le_iff_le]

theorem finite_zero {n : NumFormat} (hn : n.wf = true) : finite n f32Zero := infMagnitude_pos hn

theorem value_zero {n : NumFormat} (hn : n.wf = true) : value n f32Zero = 0 := (value_eq_zero_iff hn _).2 rfl

/-! ### scale and the scaled error, 40_pid.md R108, R109 -/

/-- A number in [0.0, 100.0] is finite, with its value there. -/
theorem value_of_inPercentRange {n : NumFormat} (hn : n.wf = true) {b : F32} (h : inPercentRange n b = true) :
    finite n b ∧ 0 ≤ value n b ∧ value n b ≤ value n (f32Hundred n) := by
  obtain ⟨hfin, -⟩ := value_hundred hn
  have hkey := (orderKey_bounds_of_finite hfin).2
  obtain ⟨h0, h1⟩ := (inPercentRange_iff n b).1 h
  refine ⟨?_, ?_, ?_⟩
  · exact finite_of_orderKey (by omega) (by omega)
  · rw [← value_zero hn, ← fle_num_iff_value_le hn, fle_num, orderKey_zero]
    exact decide_eq_true h0
  · rw [← fle_num_iff_value_le hn, fle_num]
    exact decide_eq_true h1

theorem not_fle_of_validRange {n : NumFormat} {lo hi : F32} (h : validRange n lo hi = true) :
    fle (Val.ofBits n hi) (Val.ofBits n lo) = false := by
  unfold validRange at h
  cases hl : Val.ofBits n lo with
  | nan a => simp [hl] at h
  | num a =>
    cases hh : Val.ofBits n hi with
    | nan b => simp [hh] at h
    | num b => simpa [hl, hh, flt_num, fle_num] using h

/-- Under a valid range `scale` is a clamped percentage. -/
theorem scale_of_validRange {n : NumFormat} {pid : PidStatus} (h : validRange n pid.pvMin pid.pvMax = true) (x : F32) :
    scale n pid x = clampPercent n (fdiv n (fmul n (fsub n (Val.ofBits n x) (Val.ofBits n pid.pvMin))
      (Val.ofBits n (f32Hundred n))) (fsub n (Val.ofBits n pid.pvMax) (Val.ofBits n pid.pvMin))) :=
  if_neg (Bool.eq_false_iff.1 (not_fle_of_validRange h))

theorem scale_inRange {n : NumFormat} {pid : PidStatus} (h : validRange n pid.pvMin pid.pvMax = true) (x : F32) :
    inPercentRange n (scale n pid x) = true := by
  rw [scale_of_validRange h]
  exact clampPercent_inRange n _

/-- A NaN goes through the arithmetic of `scale` to its clamp (00_scope.md R11). -/
theorem scale_of_isNaN {n : NumFormat} (hn : n.wf = true) {pid : PidStatus}
    (h : validRange n pid.pvMin pid.pvMax = true) {x : F32} (hx : isNaN n x = true) : scale n pid x = f32Zero := by
  obtain ⟨hnan, -⟩ := specialOperandsFollowIeee n hn
  obtain ⟨-, ⟨a, ha, -⟩, -, -⟩ := hnan (.nan x) (Val.ofBits n pid.pvMin) x (.inl rfl)
  obtain ⟨-, -, ⟨b, hb, -⟩, -⟩ := hnan (.nan a) (Val.ofBits n (f32Hundred n)) a (.inl rfl)
  obtain ⟨-, -, -, c, hc, -⟩ := hnan (.nan b) (fsub n (Val.ofBits n pid.pvMax) (Val.ofBits n pid.pvMin)) b (.inl rfl)
  rw [scale_of_validRange h, ofBits_of_isNaN hx, ha, hb, hc, clampPercent_nan]

/-- The difference of two percentages is between -100.0 and 100.0, and so is its rounding. -/
theorem fsub_of_inPercentRange {n : NumFormat} (hn : n.wf = true) {a b : F32} (ha : inPercentRange n a = true)
    (hb : inPercentRange n b = true) :
    ∃ e, fsub n (.num a) (.num b) = .num e ∧ finite n e ∧ value n (negBits (f32Hundred n)) ≤ value n e ∧
      value n e ≤ value n (f32Hundred n) := by
  obtain ⟨hfa, ha0, ha1⟩ := value_of_inPercentRange hn ha
  obtain ⟨hfb, hb0, hb1⟩ := value_of_inPercentRange hn hb
  obtain ⟨hfin, -⟩ := value_hundred hn
  obtain ⟨-, ⟨e, he, hround⟩, -⟩ := sumsAndProductsRoundTheExactValue n a b hn hfa hfb
  refine ⟨e, he, Rounded.between hn hround (finite_negBits hfin) hfin ?_ (by linarith)⟩
  rw [value_negBits hn]
  linarith

/-! ### Δt, 40_pid.md R107 -/

/-- An integer between two numbers of the format is between them as a number too. -/
theorem toF32_between {n : NumFormat} (hn : n.wf = true) {k : Int} {c d : F32} (hc : finite n c) (hd : finite n d)
    (hck : value n c ≤ k) (hkd : k ≤ value n d) :
    ∃ r, toF32 n k = .num r ∧ finite n r ∧ value n c ≤ value n r ∧ value n r ≤ value n d := by
  obtain ⟨hrounds, -⟩ := roundingIsCorrect
  obtain ⟨-, hint, -⟩ := hrounds n hn
  obtain ⟨r, hr, hround⟩ := hint k
  exact ⟨r, hr, Rounded.between hn hround hc hd hck hkd⟩

/-- With an exponent field of 8 bits or more, the powers of two from 2^-32 to 2^32 are numbers of the format. -/
theorem exists_finite_two_pow {n : NumFormat} (hn : n.wf = true) (hf : n.fracBits ≤ 23) {t : Int} (ht : -32 ≤ t)
    (ht' : t ≤ 32) : ∃ c, finite n c ∧ value n c = 2 ^ t := by
  have hbias : 2 ^ 7 ≤ 2 ^ (n.expBits - 1) := Nat.pow_le_pow_right two_pos (by unfold NumFormat.expBits; omega)
  obtain ⟨he, -⟩ := two_pow_expBits hn
  have hlw : leastWeight n = 2 - ((2 ^ (n.expBits - 1) : Nat) : Int) - n.fracBits := rfl
  obtain ⟨c, hc, hval⟩ := exists_finite_value hn (i := 2 ^ n.fracBits)
    (s := (t - 2 + (2 ^ (n.expBits - 1) : Nat)).toNat) le_rfl (Nat.pow_lt_pow_right one_lt_two (Nat.lt_succ_self _))
    (by omega)
  have hw : t = (n.fracBits : Int) + ((t - 2 + (2 ^ (n.expBits - 1) : Nat)).toNat + leastWeight n) := by omega
  refine ⟨c, hc, ?_⟩
  rw [hval]
  conv_rhs => rw [hw, zpow_add₀ two_ne_zero, zpow_natCast]
  push_cast
  rfl

/-- Where both ends of an interval are numbers of the format, a quotient in it is a number in it. -/
theorem fdiv_between {n : NumFormat} (hn : n.wf = true) {a b c d : F32} (ha : finite n a) (hb : finite n b)
    (hb0 : value n b ≠ 0) (hc : finite n c) (hd : finite n d) (hcx : value n c ≤ value n a / value n b)
    (hxd : value n a / value n b ≤ value n d) :
    ∃ r, fdiv n (.num a) (.num b) = .num r ∧ value n c ≤ value n r ∧ value n r ≤ value n d := by
  obtain ⟨r, hr, hround⟩ := quotientRoundsTheExactValue n a b hn ha hb hb0
  exact ⟨r, hr, (Rounded.between hn hround hc hd hcx hxd).2⟩

section

variable {n : NumFormat} (hn : n.wf = true) (hf : n.fracBits ≤ 23)

include hn hf

/-- An integer from 1 to 2^32 is a number from 1.0 to 2^32. -/
theorem toF32_of_pos {k : Int} (hk : 1 ≤ k) (hk' : k ≤ 2 ^ 32) :
    ∃ r, toF32 n k = .num r ∧ finite n r ∧ 1 ≤ value n r ∧ value n r ≤ 2 ^ (32 : Int) := by
  obtain ⟨c, hc, hcval⟩ := exists_finite_two_pow hn hf (t := 0) (by decide) (by decide)
  obtain ⟨d, hd, hdval⟩ := exists_finite_two_pow hn hf (t := 32) (by decide) le_rfl
  rw [zpow_zero] at hcval
  have h := toF32_between hn hc hd (k := k) (by rw [hcval]; exact_mod_cast hk) (by rw [hdval]; exact_mod_cast hk')
  rwa [hcval, hdval] at h

/-- An integer from -2^32 to 0 is a number from -2^32 to 0.0. -/
theorem toF32_of_nonpos {k : Int} (hk : -2 ^ 32 ≤ k) (hk' : k ≤ 0) :
    ∃ r, toF32 n k = .num r ∧ finite n r ∧ -2 ^ (32 : Int) ≤ value n r ∧ value n r ≤ 0 := by
  obtain ⟨c, hc, hcval⟩ := exists_finite_two_pow hn hf (t := 32) (by decide) le_rfl
  have h := toF32_between hn (finite_negBits hc) (finite_zero hn) (k := k)
    (by rw [value_negBits hn, hcval]; exact_mod_cast hk) (by rw [value_zero hn]; exact_mod_cast hk')
  rwa [value_negBits hn, hcval, value_zero hn] at h

/-- Numbers from 1.0 to 2^32 have a quotient of at least 2^-32, which is a number of the format, so it does not round to 0.0. -/
theorem fdiv_pos {a b : F32} (ha : finite n a) (ha1 : 1 ≤ value n a) (ha2 : value n a ≤ 2 ^ (32 : Int)) (hb : finite n b)
    (hb1 : 1 ≤ value n b) (hb2 : value n b ≤ 2 ^ (32 : Int)) :
    ∃ r, fdiv n (.num a) (.num b) = .num r ∧ 0 < value n r := by
  obtain ⟨c, hc, hcval⟩ := exists_finite_two_pow hn hf (t := -32) le_rfl (by decide)
  obtain ⟨d, hd, hdval⟩ := exists_finite_two_pow hn hf (t := 32) (by decide) le_rfl
  have hb0 : 0 < value n b := one_pos.trans_le hb1
  have hcx : value n c ≤ value n a / value n b := calc
    value n c = 1 / 2 ^ (32 : Int) := by rw [hcval, zpow_neg, one_div]
    _ ≤ 1 / value n b := one_div_le_one_div_of_le hb0 hb2
    _ ≤ value n a / value n b := by gcongr
  have hxd : value n a / value n b ≤ value n d := calc
    value n a / value n b ≤ value n a := div_le_self (zero_le_one.trans ha1) hb1
    _ ≤ value n d := ha2.trans_eq hdval.symm
  obtain ⟨r, hr, hlo, -⟩ := fdiv_between hn ha hb hb0.ne' hc hd hcx hxd
  exact ⟨r, hr, lt_of_lt_of_le (by rw [hcval]; positivity) hlo⟩

/-- A number from -2^32 to 0.0 by one of at least 1.0 is not positive. -/
theorem fdiv_nonpos {a b : F32} (ha : finite n a) (ha1 : -2 ^ (32 : Int) ≤ value n a) (ha2 : value n a ≤ 0)
    (hb : finite n b) (hb1 : 1 ≤ value n b) : ∃ r, fdiv n (.num a) (.num b) = .num r ∧ value n r ≤ 0 := by
  obtain ⟨c, hc, hcval⟩ := exists_finite_two_pow hn hf (t := 32) (by decide) le_rfl
  have hb0 : 0 < value n b := one_pos.trans_le hb1
  have hcx : value n (negBits c) ≤ value n a / value n b := by
    have hle : (2 : ℚ) ^ (32 : Int) ≤ 2 ^ (32 : Int) * value n b := le_mul_of_one_le_right (by positivity) hb1
    rw [value_negBits hn, hcval, le_div_iff₀ hb0]
    linarith
  have hxd : value n a / value n b ≤ value n f32Zero := by
    rw [value_zero hn]
    exact div_nonpos_of_nonpos_of_nonneg ha2 hb0.le
  obtain ⟨r, hr, -, hhi⟩ := fdiv_between hn ha hb hb0.ne' (finite_negBits hc) (finite_zero hn) hcx hxd
  exact ⟨r, hr, hhi.trans_eq (value_zero hn)⟩

end

end Sys2Proof.Machine
end

section
/-! PROOFS. The obligations of 40_pid.md. -/

open Sys2Proof Sys2Proof.Machine Sys2Proof.Claim

/-- Settles O36: the arbiter and the PID update leave the gains and the limits that the drain left. -/
theorem tickAppliesStagedGainsAndLimits : Obligations.TickAppliesStagedGainsAndLimits := by
  intro s pv now hlive
  refine ⟨_, exec_eq_next_iff.2 ⟨.inr hlive, rfl⟩, ?_⟩
  have htuning := runTick_tuning pv now s
  simp only [PidStatus.tuning, Prod.mk.injEq] at htuning
  obtain ⟨hkp, hki, hkd, hmin, hmax⟩ := htuning
  refine ⟨hkp, hki, hkd, ?_⟩
  rw [run, hmin, hmax]
  simp only [applied]
  split <;> rfl

/-- Settles O41: OperatorAuto puts the PID in Auto, whose arm computes. -/
theorem tickAutoComputesTheVelocityForm : Obligations.TickAutoComputesTheVelocityForm := by
  intro s pv now hlive hc ho hlast hdt
  have harm : pidUpdate pv now (arbitrate pv s) = updateAuto now (recordPv pv (arbitrate pv s)) := by
    rw [arbitrate_of_operatorAuto hc ho]
    apply modeArm_of_auto
    · exact hc
    · rfl
  refine exec_eq_next_iff.2 ⟨.inr hlive, ?_⟩
  rw [run, runTick_of_elapsed harm hlast hdt, arbitrate_of_operatorAuto hc ho]
  rfl

/-- Settles O42: a PID that a TICK leaves in Auto ran the Auto arm, which computes. -/
theorem computeShiftsTheHistory : Obligations.ComputeShiftsTheHistory := by
  intro s t pv now hc hexec hmode hlast hdt
  obtain ⟨-, rfl⟩ := exec_eq_next_iff.1 hexec
  obtain ⟨hcfg, hhist⟩ := arbitrate_cfg_hist pv s
  have harm : pidUpdate pv now (arbitrate pv s) = updateAuto now (recordPv pv (arbitrate pv s)) :=
    modeArm_eq_updateAuto (s := recordPv pv (arbitrate pv s)) (by rwa [← hcfg] at hc) (by rwa [← hcfg] at hmode)
  rw [run, runTick_of_elapsed harm hlast hdt, ← hcfg, ← hhist]
  exact ⟨rfl, rfl, rfl⟩

/-- Settles O48: the update reads the stored mode, and the invalid-mode arm is the Off arm in mode Off. -/
theorem invalidModeForcesOff : Obligations.InvalidModeForcesOff :=
  fun s pv now hmode => modeArm_of_invalid (s := recordPv pv s) hmode pv now

/-- Settles O53: `scale` is a clamped percentage, and the difference of two percentages rounds to a number between -100.0 and
100.0. -/
theorem scaleIsAPercentage : Obligations.ScaleIsAPercentage := by
  intro n pid x hn
  refine ⟨rfl, fun hrange => ⟨scale_inRange hrange x, scale_of_isNaN hn hrange, ?_⟩⟩
  have hsp := scale_inRange hrange pid.sp
  have hpv := scale_inRange hrange pid.pv
  obtain ⟨e, he, hfin, hlo, hhi⟩ := fsub_of_inPercentRange hn hsp hpv
  rw [scaledError, ofBits_of_notNaN (notNaN_of_inPercentRange hsp), ofBits_of_notNaN (notNaN_of_inPercentRange hpv),
    ofBits_of_notNaN (notNaN_hundred n)]
  exact ⟨e, he, notNaN_of_finite hfin, (fle_num_iff_value_le hn _ _).2 hlo, (fle_num_iff_value_le hn _ _).2 hhi⟩

/-- Settles O54: times that fit 32 bits have a difference and a quotient that keep their sign when rounded. -/
theorem elapsedIsPositiveExactlyWhenTimeAdvanced : Obligations.ElapsedIsPositiveExactlyWhenTimeAdvanced := by
  refine fun c now last => ⟨rfl, fun hn hf hnow hlast htps htps' => ?_⟩
  obtain ⟨b, hb, hbfin, hb1, hb2⟩ := toF32_of_pos hn hf (k := c.ticksPerSecond) (by omega) (by omega)
  rw [elapsed, hb, ofBits_of_notNaN (notNaN_zero c.num)]
  rcases Nat.lt_or_ge last now with hlt | hge
  · obtain ⟨a, ha, hafin, ha1, ha2⟩ := toF32_of_pos hn hf (k := (now : Int) - last) (by omega) (by omega)
    obtain ⟨r, hr, hpos⟩ := fdiv_pos hn hf hafin ha1 ha2 hbfin hb1 hb2
    rw [ha, hr, fle_num_iff_value_le hn, value_zero hn]
    exact iff_of_false hpos.not_ge hlt.not_ge
  · obtain ⟨a, ha, hafin, ha1, ha2⟩ := toF32_of_nonpos hn hf (k := (now : Int) - last) (by omega) (by omega)
    obtain ⟨r, hr, hnonpos⟩ := fdiv_nonpos hn hf hafin ha1 ha2 hbfin hb1
    rw [ha, hr, fle_num_iff_value_le hn, value_zero hn]
    exact iff_of_true hnonpos hge
end

section
/-! PROOFS. What TICK does by the outer mode and the strategy ProgrammedAuto picks (41_arbiter.md R130 to R142). -/

namespace Sys2Proof.Machine

open Sys2Proof.Claim

/-! ### The outer mode, 41_arbiter.md R130 and R132 -/

/-- Where each code names one mode, OperatorManual's is not Off's, and ProgrammedAuto's is none of the three others. -/
theorem Config.codesDistinct_outer {c : Config} (h : c.codesDistinct = true) :
    c.modes.outerOperatorManual ≠ c.modes.outerOff ∧ c.modes.outerProgrammedAuto ≠ c.modes.outerOff ∧
      c.modes.outerProgrammedAuto ≠ c.modes.outerOperatorManual ∧
      c.modes.outerProgrammedAuto ≠ c.modes.outerOperatorAuto := by
  simp only [Config.codesDistinct, Bool.and_eq_true, decide_eq_true_eq] at h
  obtain ⟨⟨-, houter⟩, -⟩ := h
  simp only [ModeCodes.outer, List.nodup_cons, List.mem_cons, not_or] at houter
  obtain ⟨⟨hmanual, -, hoff, -⟩, ⟨-, hmanual', -⟩, ⟨hauto, -⟩, -⟩ := houter
  exact ⟨Ne.symm hmanual, Ne.symm hoff, Ne.symm hmanual', Ne.symm hauto⟩

theorem arbitrate_eq_outerArm (pv : F32) (s : State) : arbitrate pv s = outerArm pv (outerFallback (applied s)) := by
  rw [arbitrate, applyPending_eq_applied]

/-- With an outer byte that is a mode, the fallback does nothing. -/
theorem arbitrate_of_legal {s : State} (h : s.ctrl.outer ∈ s.cfg.modes.outer) (pv : F32) :
    arbitrate pv s = outerArm pv (applied s) := by
  have hlegal : outerFallback (applied s) = applied s := if_pos h
  rw [arbitrate_eq_outerArm, hlegal]

theorem arbitrate_of_off {s : State} (ho : s.ctrl.outer = s.cfg.modes.outerOff) (pv : F32) :
    arbitrate pv s = driveOff .off pv (applied s) := by
  rw [arbitrate_of_legal (by simp [ho, ModeCodes.outer])]
  exact if_pos ho

theorem arbitrate_of_operatorManual {s : State} (hc : s.cfg.codesDistinct = true)
    (ho : s.ctrl.outer = s.cfg.modes.outerOperatorManual) (pv : F32) :
    arbitrate pv s = driveManual .off pv (applied s) := by
  obtain ⟨hoff, -⟩ := Config.codesDistinct_outer hc
  rw [arbitrate_of_legal (by simp [ho, ModeCodes.outer])]
  exact (if_neg (ho.trans_ne hoff)).trans (if_pos ho)

theorem arbitrate_of_programmedAuto {s : State} (hc : s.cfg.codesDistinct = true)
    (ho : s.ctrl.outer = s.cfg.modes.outerProgrammedAuto) (pv : F32) :
    arbitrate pv s = armProgrammedAuto pv (applied s) := by
  obtain ⟨-, hoff, hmanual, hauto⟩ := Config.codesDistinct_outer hc
  rw [arbitrate_of_legal (by simp [ho, ModeCodes.outer])]
  exact (if_neg (ho.trans_ne hoff)).trans ((if_neg (ho.trans_ne hmanual)).trans (if_neg (ho.trans_ne hauto)))

/-- Every arm leaves the PID in Off, Manual or Auto. -/
theorem outerArm_mode_legal (pv : F32) (s : State) : (outerArm pv s).pid.mode ∈ (outerArm pv s).cfg.modes.pid := by
  rcases outerArm_cases pv s with he | he | he | he | he <;> rw [he]
  · exact .head _
  · exact .tail _ (.head _)
  · exact .tail _ (.tail _ (.head _))
  · exact .tail _ (.head _)
  · exact .tail _ (.head _)

theorem arbitrate_outer_legal (pv : F32) (s : State) : (arbitrate pv s).ctrl.outer ∈ s.cfg.modes.outer := by
  obtain ⟨_, _, he⟩ := outerArm_frame pv (outerFallback (applyPending s))
  rw [arbitrate, he]
  exact outerFallback_legal (applyPending s)

/-- What ProgrammedAuto drives for a strategy (41_arbiter.md R134, R138). -/
def Strategy.drive (strategy : Strategy) (pv : F32) (s : State) : State :=
  match strategy with
  | .off => driveOff .off pv s
  | .boost => driveOutput .boost s.ctrl.boostCv pv s
  | .feedForward => driveOutput .feedForward s.ctrl.ffCv pv s
  | .closedLoop => driveAuto .closedLoop s

theorem armProgrammedAuto_eq_drive (pv : F32) (s : State) :
    armProgrammedAuto pv s = (classify s.cfg.num s.ctrl pv).drive pv s := rfl

/-! ### What the arbiter does not read -/

/-- The registers that every arm writes and none reads: the PID mode, the PID setpoint and the inner strategy. -/
def State.withDriven (mode : Byte) (sp : F32) (inner : Byte) (s : State) : State :=
  { s with pid := { s.pid with mode := mode, sp := sp }, ctrl := { s.ctrl with inner := inner } }

section

variable (mode : Byte) (sp : F32) (inner : Byte)

theorem Strategy.drive_withDriven (strategy : Strategy) (pv : F32) (s : State) :
    strategy.drive pv (s.withDriven mode sp inner) = strategy.drive pv s := by
  cases strategy <;> rfl

theorem outerArm_withDriven (pv : F32) (s : State) : outerArm pv (s.withDriven mode sp inner) = outerArm pv s := by
  have hprogrammed : armProgrammedAuto pv (s.withDriven mode sp inner) = armProgrammedAuto pv s :=
    Strategy.drive_withDriven mode sp inner (classify s.cfg.num s.ctrl pv) pv s
  rw [outerArm, hprogrammed]
  rfl

theorem outerFallback_withDriven (s : State) :
    outerFallback (s.withDriven mode sp inner) = (outerFallback s).withDriven mode sp inner := by
  rw [outerFallback_eq, outerFallback_eq]
  rfl

end

/-- Drains that differ in those registers alone are arbitrated alike. -/
theorem arbitrate_eq_of_applied {s t : State} {mode : Byte} {sp : F32} {inner : Byte}
    (h : applied t = (applied s).withDriven mode sp inner) (pv : F32) : arbitrate pv t = arbitrate pv s := by
  rw [arbitrate_eq_outerArm, h, outerFallback_withDriven, outerArm_withDriven, ← arbitrate_eq_outerArm]

/-- A TICK is its arbitration and the PID update of that, so states arbitrated alike tick alike. -/
theorem exec_tick_congr {s t : State} {pv : F32} (h : arbitrate pv t = arbitrate pv s) (hlive : t.live = s.live)
    (now : Nat) : exec (.tick pv now) t = exec (.tick pv now) s := by
  simp only [exec, execTick, whenLive, runTick, hlive, h]

/-! ### The PID update, by the mode the arbiter leaves -/

theorem modeArm_of_off {s : State} (hmode : s.pid.mode = s.cfg.modes.pidOff) (pv : F32) (now : Nat) :
    modeArm pv now s = updateOff pv s := if_pos hmode

theorem modeArm_of_manual {s : State} (hc : s.cfg.codesDistinct = true) (hmode : s.pid.mode = s.cfg.modes.pidManual)
    (pv : F32) (now : Nat) : modeArm pv now s = updateManual pv s := by
  obtain ⟨hoff, -, -⟩ := Config.codesDistinct_pid hc
  rw [modeArm, if_neg (hmode.trans_ne hoff.symm), if_pos hmode]

theorem pidUpdate_of_auto {s : State} (hc : s.cfg.codesDistinct = true) (hmode : s.pid.mode = s.cfg.modes.pidAuto)
    (pv : F32) (now : Nat) : pidUpdate pv now s = updateAuto now (recordPv pv s) :=
  modeArm_of_auto (s := recordPv pv s) hc hmode pv now

/-- No mode's arm writes the recorded pv. -/
theorem modeArm_pv (pv : F32) (now : Nat) (s : State) : (modeArm pv now s).1.pid.pv = s.pid.pv := by
  rcases modeArm_cases pv now s with ⟨-, he⟩ | ⟨-, he⟩ | ⟨-, he⟩ | ⟨-, he⟩ <;> rw [he]
  · rfl
  · rfl
  · rcases updateAuto_cases now s with he | ⟨-, he⟩ <;> rw [he] <;> rfl
  · rfl

theorem runTick_pv (pv : F32) (now : Nat) (s : State) : (runTick pv now s).pid.pv = pv :=
  modeArm_pv pv now (recordPv pv (arbitrate pv s))

/-- With no prior tick, or a Δt that is not positive, the Auto arm writes the timestamp alone (40_pid.md R106, R107). -/
theorem updateAuto_of_held {s : State} {now : Nat} (h : s.hist.lastTick = 0 ∨
    fle (deltaT s.cfg now s.hist.lastTick) (Val.ofBits s.cfg.num f32Zero) = true) :
    updateAuto now s = updateStamp now s := by
  rcases h with hseed | hdt
  · exact if_pos hseed
  · rw [updateAuto]
    split
    · rfl
    · exact if_pos hdt

/-- A state with another outer mode. -/
def State.withOuter (outer : Byte) (s : State) : State := setCtrl { s.ctrl with outer := outer } s

/-- The Auto arm neither reads nor writes the outer mode. -/
theorem updateAuto_withOuter (now : Nat) (outer : Byte) (s : State) :
    updateAuto now (s.withOuter outer) = ((updateAuto now s).1.withOuter outer, (updateAuto now s).2) := by
  by_cases hheld : s.hist.lastTick = 0 ∨
      fle (deltaT s.cfg now s.hist.lastTick) (Val.ofBits s.cfg.num f32Zero) = true
  · rw [updateAuto_of_held hheld, updateAuto_of_held (s := s.withOuter outer) hheld]
    rfl
  · obtain ⟨hlast, hdt⟩ := not_or.1 hheld
    rw [Bool.not_eq_true] at hdt
    rw [updateAuto_of_elapsed hlast hdt, updateAuto_of_elapsed (s := s.withOuter outer) hlast hdt]
    rfl

section

variable {s u : State} {pv : F32} (harbitrate : arbitrate pv s = u) (now : Nat)

include harbitrate

theorem runTick_of_off (hmode : u.pid.mode = u.cfg.modes.pidOff) :
    runTick pv now s = { u with
      pid := { u.pid with cv := f32Zero, sp := pv, pv := pv }
      hist := { u.hist with lastTick := 0 }
      result := .tick f32Zero } := by
  rw [runTick, harbitrate, pidUpdate, modeArm_of_off (s := recordPv pv u) hmode]
  rfl

theorem runTick_of_manual (hc : u.cfg.codesDistinct = true) (hmode : u.pid.mode = u.cfg.modes.pidManual) :
    runTick pv now s = { u with
      pid := { u.pid with sp := pv, pv := pv }
      hist := { u.hist with lastTick := 0 }
      result := .tick u.pid.cv } := by
  rw [runTick, harbitrate, pidUpdate, modeArm_of_manual (s := recordPv pv u) hc hmode]
  rfl

theorem runTick_of_auto (hc : u.cfg.codesDistinct = true) (hmode : u.pid.mode = u.cfg.modes.pidAuto) :
    runTick pv now s =
      returning (.tick (updateAuto now (recordPv pv u)).2) (updateAuto now (recordPv pv u)).1 := by
  rw [runTick, harbitrate, pidUpdate_of_auto hc hmode]

theorem runTick_of_held (hc : u.cfg.codesDistinct = true) (hmode : u.pid.mode = u.cfg.modes.pidAuto)
    (hheld : u.hist.lastTick = 0 ∨
      fle (deltaT u.cfg now u.hist.lastTick) (Val.ofBits u.cfg.num f32Zero) = true) :
    runTick pv now s = { u with
      pid := { u.pid with pv := pv }
      hist := { u.hist with lastTick := now }
      result := .tick u.pid.cv } := by
  rw [runTick_of_auto harbitrate now hc hmode, updateAuto_of_held (s := recordPv pv u) hheld]
  rfl

/-- In Auto, arbitrations that differ in the outer mode alone tick alike but for the outer mode. -/
theorem runTick_withOuter_of_auto {t : State} {outer : Byte} (ht : arbitrate pv t = u.withOuter outer)
    (hc : u.cfg.codesDistinct = true) (hmode : u.pid.mode = u.cfg.modes.pidAuto) :
    runTick pv now t = (runTick pv now s).withOuter outer := by
  have hrecord : recordPv pv (u.withOuter outer) = (recordPv pv u).withOuter outer := rfl
  rw [runTick_of_auto ht now hc hmode, runTick_of_auto harbitrate now hc hmode, hrecord, updateAuto_withOuter]
  rfl

end

/-! ### The strategy, 41_arbiter.md R133, R138 and R142 -/

theorem arbitrate_of_classify {s : State} {pv : F32} {strategy : Strategy} (hc : s.cfg.codesDistinct = true)
    (ho : s.ctrl.outer = s.cfg.modes.outerProgrammedAuto) (h : classify s.cfg.num s.ctrl pv = strategy) :
    arbitrate pv s = strategy.drive pv (applied s) := by
  rw [arbitrate_of_programmedAuto hc ho, armProgrammedAuto_eq_drive, ← h]
  rfl

section

variable {n : NumFormat} {ctrl : ControlState} {pv : F32}

theorem classify_off (h : fle (arbiterError n ctrl pv) (fneg (Val.ofBits n ctrl.deadband)) = true) :
    classify n ctrl pv = .off := if_pos h

variable (hhot : fle (arbiterError n ctrl pv) (fneg (Val.ofBits n ctrl.deadband)) = false)

include hhot

theorem classify_boost (h : fle (Val.ofBits n ctrl.boostErrThreshold) (arbiterError n ctrl pv) = true) :
    classify n ctrl pv = .boost := by
  simp [classify, hhot, h]

variable (hcold : fle (Val.ofBits n ctrl.boostErrThreshold) (arbiterError n ctrl pv) = false)

include hcold

theorem classify_feedForward (h : fle (fabs (arbiterError n ctrl pv)) (Val.ofBits n ctrl.deadband) = false) :
    classify n ctrl pv = .feedForward := by
  simp [classify, hhot, hcold, h]

end

/-- ClosedLoop is picked where the tests of Off and Boost fail and the deadband's holds. -/
theorem classify_eq_closedLoop_iff {n : NumFormat} {ctrl : ControlState} {pv : F32} :
    classify n ctrl pv = .closedLoop ↔
      fle (arbiterError n ctrl pv) (fneg (Val.ofBits n ctrl.deadband)) = false ∧
        fle (Val.ofBits n ctrl.boostErrThreshold) (arbiterError n ctrl pv) = false ∧
        fle (fabs (arbiterError n ctrl pv)) (Val.ofBits n ctrl.deadband) = true := by
  unfold classify
  dsimp only
  split_ifs <;> simp [*]

/-- Numbers are totally ordered, so of them a failed `≤` is a strict order the other way. -/
theorem fle_num_eq_false_iff (a b : F32) : fle (.num a) (.num b) = false ↔ flt (.num b) (.num a) = true := by
  rw [fle_num, flt_num, decide_eq_false_iff_not, decide_eq_true_eq, not_le]

/-- In ProgrammedAuto with strategy ClosedLoop a TICK is OperatorAuto's, but for the outer mode that it keeps. -/
theorem runTick_of_closedLoop {s : State} {pv : F32} (hc : s.cfg.codesDistinct = true)
    (ho : s.ctrl.outer = s.cfg.modes.outerProgrammedAuto) (h : classify s.cfg.num s.ctrl pv = .closedLoop) (now : Nat) :
    runTick pv now s =
      (runTick pv now (s.withOuter s.cfg.modes.outerOperatorAuto)).withOuter s.cfg.modes.outerProgrammedAuto := by
  have hoperator := arbitrate_of_operatorAuto (s := s.withOuter s.cfg.modes.outerOperatorAuto) hc rfl pv
  have hprogrammed : arbitrate pv s =
      (arbitrate pv (s.withOuter s.cfg.modes.outerOperatorAuto)).withOuter s.cfg.modes.outerProgrammedAuto := by
    rw [arbitrate_of_classify hc ho h, hoperator, ← ho]
    rfl
  rw [hoperator] at hprogrammed
  exact runTick_withOuter_of_auto hoperator now hprogrammed hc rfl

end Sys2Proof.Machine
end

section
/-! PROOFS. The obligations of 41_arbiter.md. -/

open Sys2Proof Sys2Proof.Machine Sys2Proof.Claim

/-- Settles O35: the arbiter and the PID update write within TICK's frame, and no arm overwrites the recorded pv. -/
theorem tickCompletesWithinItsGroups : Obligations.TickCompletesWithinItsGroups := by
  intro s pv now hlive
  have hpv := runTick_pv pv now s
  obtain ⟨_, _, _, hframe⟩ := runTick_frame pv now s
  rw [hframe] at hpv
  exact ⟨_, exec_eq_next_iff.2 ⟨.inr hlive, hframe⟩, rfl, rfl, rfl, hlive, rfl, rfl, rfl, hpv, rfl⟩

/-- Settles O37: outer mode Off puts the PID in Off, whose arm forces Cv to 0.0. -/
theorem tickOffCutsTheOutput : Obligations.TickOffCutsTheOutput :=
  fun _ _ now hlive ho => exec_eq_next_iff.2 ⟨.inr hlive, runTick_of_off (arbitrate_of_off ho _) now rfl⟩

/-- Settles O38: the fallback makes the outer byte Off's before the arbiter reads it. -/
theorem invalidOuterModeFallsBackToOff : Obligations.InvalidOuterModeFallsBackToOff := by
  intro s pv now hinvalid
  have hfallback : outerFallback (applied s) =
      applied { s with ctrl := { s.ctrl with outer := s.cfg.modes.outerOff } } := if_neg hinvalid
  have harbitrate : arbitrate pv s = arbitrate pv { s with ctrl := { s.ctrl with outer := s.cfg.modes.outerOff } } := by
    rw [arbitrate_eq_outerArm, hfallback, arbitrate_of_legal (by simp [ModeCodes.outer])]
  exact exec_tick_congr harbitrate rfl now

/-- Settles O39: OperatorManual puts the PID in Manual, whose arm keeps the Cv that the drain leaves. -/
theorem tickOperatorManualKeepsCv : Obligations.TickOperatorManualKeepsCv :=
  fun _ _ now hlive hc ho =>
    exec_eq_next_iff.2 ⟨.inr hlive, runTick_of_manual (arbitrate_of_operatorManual hc ho _) now hc rfl⟩

/-- Settles O40: OperatorAuto puts the PID in Auto, whose arm then writes the timestamp alone. -/
theorem tickAutoSeedsOrHolds : Obligations.TickAutoSeedsOrHolds :=
  fun _ _ now hlive hc ho hheld =>
    exec_eq_next_iff.2 ⟨.inr hlive, runTick_of_held (arbitrate_of_operatorAuto hc ho _) now hc rfl hheld⟩

/-- Settles O43: Off as in the whole next state of its TICK; OperatorAuto by the mode it leaves, which the update reads. -/
theorem offAndOperatorAutoDriveThePid : Obligations.OffAndOperatorAutoDriveThePid := by
  refine ⟨fun s pv now hlive hc => ⟨fun ho => ?_, fun ho => ⟨?_, ?_⟩⟩, by decide⟩
  · exact ⟨_, tickOffCutsTheOutput s pv now hlive ho, rfl, rfl, rfl, rfl, rfl⟩
  · rw [← arbitrate_of_operatorAuto hc ho pv]
    exact exec_eq_next_iff.2 ⟨.inr hlive, rfl⟩
  · refine pidUpdate_of_auto ?_ ?_ pv now
    · exact hc
    · rfl

/-- Settles O44, by the strategy that R133's tests pick. -/
theorem tickProgrammedAutoPicksTheStrategy : Obligations.TickProgrammedAutoPicksTheStrategy := by
  intro s pv now hlive hc ho
  refine ⟨fun hhot => ?_, fun hhot hcold => ?_, fun hhot hcold hnear => ?_, fun hhot hcold hnear => ?_⟩
  · exact exec_eq_next_iff.2 ⟨.inr hlive, runTick_of_off (arbitrate_of_classify hc ho (classify_off hhot)) now rfl⟩
  · exact exec_eq_next_iff.2
      ⟨.inr hlive, runTick_of_manual (arbitrate_of_classify hc ho (classify_boost hhot hcold)) now hc rfl⟩
  · exact ⟨_, exec_eq_next_iff.2 ⟨.inr hlive, rfl⟩,
      exec_eq_next_iff.2 ⟨.inr hlive, runTick_of_closedLoop hc ho (classify_eq_closedLoop_iff.2 ⟨hhot, hcold, hnear⟩) now⟩⟩
  · exact exec_eq_next_iff.2
      ⟨.inr hlive,
        runTick_of_manual (arbitrate_of_classify hc ho (classify_feedForward hhot hcold hnear)) now hc rfl⟩

/-- Settles O45: with numbers the failed tests of Off and Boost are the strict orders of R142, and an error or a deadband that
is no number fails the deadband test, in which both stand. -/
theorem closedLoopExactlyInsideBothExtremes : Obligations.ClosedLoopExactlyInsideBothExtremes := by
  intro n ctrl pv hthreshold
  rw [classify_eq_closedLoop_iff, ofBits_of_notNaN hthreshold]
  cases arbiterError n ctrl pv with
  | nan e => simp [fabs]
  | num e =>
    cases Val.ofBits n ctrl.deadband with
    | nan d => simp
    | num d => rw [fneg, fle_num_eq_false_iff, fle_num_eq_false_iff]

/-- Settles O47: every arm leaves the PID in one of its three modes, and the fallback leaves one of the four outer modes. -/
theorem pidUpdateNeverSeesAnInvalidMode : Obligations.PidUpdateNeverSeesAnInvalidMode := by
  intro s pv
  have hmode : (arbitrate pv s).pid.mode ∈ (arbitrate pv s).cfg.modes.pid := outerArm_mode_legal pv _
  obtain ⟨hcfg, -⟩ := arbitrate_cfg_hist pv s
  rw [hcfg] at hmode
  exact ⟨hmode, arbitrate_outer_legal pv s⟩

/-- Settles O49: the slots reach the PID mode and setpoint only, after the manual Cv was drained, and every arm overwrites
both. -/
theorem stagedModeAndSetpointHaveNoEffect : Obligations.StagedModeAndSetpointHaveNoEffect := by
  intro s pv now m v
  have happlied : applied { s with pend := { s.pend with mode := m, sp := v } } =
      (applied s).withDriven (m.getD s.pid.mode) (v.getD s.pid.sp) s.ctrl.inner := rfl
  exact exec_tick_congr (arbitrate_eq_of_applied happlied pv) rfl now

/-- Settles O50: every arm overwrites the inner strategy. -/
theorem innerStrategyHasNoEffectOnTick : Obligations.InnerStrategyHasNoEffectOnTick := by
  intro s pv now b
  have happlied : applied { s with ctrl := { s.ctrl with inner := b } } =
      (applied s).withDriven (applied s).pid.mode (applied s).pid.sp b := rfl
  exact exec_tick_congr (arbitrate_eq_of_applied happlied pv) rfl now
end

section
/-! PROOFS. What the drain and the scan leave, written out (42_transport.md R151 to R153). -/

namespace Sys2Proof

theorem Config.wf_rxCap {c : Config} (h : c.wf = true) : headerSize ≤ c.rxCap := by
  simp only [Config.wf, Config.bounds, Bool.and_eq_true, decide_eq_true_eq] at h
  obtain ⟨⟨⟨⟨⟨⟨hrx, -⟩, -⟩, -⟩, -⟩, -⟩, -⟩ := h
  exact hrx

namespace Machine

open Sys2Proof.Claim

theorem counted_zero (s : State) (x : Nat) : counted s x 0 = x := rfl

/-- One event after `k` others. -/
theorem wrapAdd_counted (s : State) (x k : Nat) :
    wrapAdd s.cfg.counterW (counted s x k) 1 = counted s x (k + 1) := by
  cases k with
  | zero => rfl
  | succ k => simp [wrapAdd, counted, Nat.add_assoc]

/-! ### The drain, R151 -/

/-- The overflows of `n` bytes and one more: one more where the buffer holds `cap` bytes, and otherwise as many. -/
theorem overflows_succ {cap n : Nat} (hcap : 1 ≤ cap) :
    n / cap = if n - cap * ((n - 1) / cap) = cap then (n - 1) / cap + 1 else (n - 1) / cap := by
  have hmod := Nat.div_add_mod (n - 1) cap
  have hlt := Nat.mod_lt (n - 1) hcap
  generalize (n - 1) / cap = q at *
  split_ifs with hfull
  · have hn : n = cap * (q + 1) := by rw [Nat.mul_succ]; omega
    rw [hn, Nat.mul_div_cancel_left _ hcap]
  · refine Nat.div_eq_of_lt_le ?_ ?_
    · rw [Nat.mul_comm]; omega
    · rw [Nat.mul_comm, Nat.mul_succ]; omega

/-- A state whose buffer the drain has cut at its `overflows` overflows, out of all the bytes it took. -/
def State.cutAt (overflows : Nat) (bytes : List Byte) (s : State) : State :=
  { s with
    tr := { s.tr with rx := bytes.drop (s.cfg.rxCap * overflows) }
    cnt := { s.cnt with overflow := counted s s.cnt.overflow overflows } }

/-- The bytes that join the buffer one by one are cut at every multiple of the capacity. -/
theorem foldl_drainByte_eq {s : State} (hcap : 1 ≤ s.cfg.rxCap) (hrx : s.tr.rx.length ≤ s.cfg.rxCap)
    (bytes : List Byte) :
    bytes.foldl drainByte s =
      s.cutAt (((s.tr.rx ++ bytes).length - 1) / s.cfg.rxCap) (s.tr.rx ++ bytes) := by
  induction bytes using List.reverseRecOn with
  | nil =>
    have hnone : (s.tr.rx.length - 1) / s.cfg.rxCap = 0 := Nat.div_eq_of_lt (by omega)
    simp [State.cutAt, hnone, counted_zero]
  | append_singleton bytes x ih =>
    rw [List.foldl_append, ih, ← List.append_assoc]
    generalize s.tr.rx ++ bytes = b
    have hsucc := overflows_succ (n := b.length) hcap
    have hle : s.cfg.rxCap * ((b.length - 1) / s.cfg.rxCap) ≤ b.length - 1 := Nat.mul_div_le ..
    rw [List.length_append, List.length_singleton, Nat.add_sub_cancel, hsucc]
    generalize (b.length - 1) / s.cfg.rxCap = q at hle
    rw [List.foldl_cons, List.foldl_nil]
    rcases drainByte_cases (s.cutAt q b) x with ⟨hroom, he⟩ | ⟨hfull, he⟩ <;> rw [he]
    · have hlen : b.length - s.cfg.rxCap * q ≠ s.cfg.rxCap := by simpa [State.cutAt] using hroom
      rw [if_neg hlen]
      simp [State.cutAt, append, setTr, List.drop_append_of_le_length (by omega : s.cfg.rxCap * q ≤ b.length)]
    · have hlen : b.length - s.cfg.rxCap * q = s.cfg.rxCap := by simpa [State.cutAt] using hfull
      have hall : s.cfg.rxCap * (q + 1) = b.length := by rw [Nat.mul_succ]; omega
      rw [if_pos hlen]
      simp [State.cutAt, append, clear, raise, count, Counters.add, setTr, hall, wrapAdd_counted]

/-- The drain cuts all the bytes that waited, and empties the input. -/
theorem drain_eq {s : State} (hcap : 1 ≤ s.cfg.rxCap) (hrx : s.tr.rx.length ≤ s.cfg.rxCap) :
    drain s = setInQ []
      (s.cutAt (((s.tr.rx ++ s.tr.inQ).length - 1) / s.cfg.rxCap) (s.tr.rx ++ s.tr.inQ)) :=
  congrArg (setInQ []) (foldl_drainByte_eq hcap hrx s.tr.inQ)

/-- Bytes that fit the buffer join it, and nothing is counted. -/
theorem drain_of_fits {s : State} (hcap : 1 ≤ s.cfg.rxCap) (hfits : (s.tr.rx ++ s.tr.inQ).length ≤ s.cfg.rxCap) :
    drain s = { s with tr := { s.tr with rx := s.tr.rx ++ s.tr.inQ, inQ := [] } } := by
  have hnone : ((s.tr.rx ++ s.tr.inQ).length - 1) / s.cfg.rxCap = 0 := Nat.div_eq_of_lt (by omega)
  rw [List.length_append] at hfits
  rw [drain_eq hcap (by omega), hnone]
  rfl

/-- With nothing waiting the drain changes nothing. -/
theorem drain_of_inQ_nil {s : State} (h : s.tr.inQ = []) : drain s = s := by
  rw [drain, h, List.foldl_nil]
  exact congrArg (setInQ · s) h.symm

/-! ### The scan, R152 and R153 -/

/-- Dropping skipped bytes counts them, and one event if there were any. -/
theorem resyncDrop_eq (k : Nat) (s : State) :
    resyncDrop k s = { s with
      tr := { s.tr with rx := s.tr.rx.drop k }
      cnt := { s.cnt with
        resyncDrops := counted s s.cnt.resyncDrops k
        badMagic := counted s s.cnt.badMagic (if 0 < k then 1 else 0) } } := by
  cases k <;> rfl

theorem le32_ne_nil (v : U32) : le32 v ≠ [] := List.cons_ne_nil _ _

/-- The scan stops at the first magic, or finds none. -/
theorem scan_cases (s : State) :
    (∃ k, magicAt s.cfg s.tr.rx k ∧ (∀ j < k, ¬ magicAt s.cfg s.tr.rx j) ∧ scan s = (resyncDrop k s, true)) ∨
      ((∀ j, ¬ magicAt s.cfg s.tr.rx j) ∧ scan s = (resyncDrop (s.tr.rx.length - 3) s, false)) := by
  unfold scan
  cases hfind : findMagic (le32 s.cfg.magic) s.tr.rx with
  | some k =>
    obtain ⟨-, hat, hfirst⟩ := findMagic_some hfind
    exact .inl ⟨k, hat, hfirst, rfl⟩
  | none => exact .inr ⟨findMagic_none (le32_ne_nil _) hfind, rfl⟩

theorem scan_of_first {s : State} {k : Nat} (hat : magicAt s.cfg s.tr.rx k)
    (hfirst : ∀ j < k, ¬ magicAt s.cfg s.tr.rx j) : scan s = (resyncDrop k s, true) := by
  rcases scan_cases s with ⟨k', hat', hfirst', he⟩ | ⟨hnone, -⟩
  · obtain rfl : k' = k :=
      Nat.le_antisymm (not_lt.1 fun h => hfirst' k h hat) (not_lt.1 fun h => hfirst k' h hat')
    exact he
  · exact absurd hat (hnone k)

theorem scan_of_none {s : State} (hnone : ∀ j, ¬ magicAt s.cfg s.tr.rx j) :
    scan s = (resyncDrop (s.tr.rx.length - 3) s, false) := by
  rcases scan_cases s with ⟨k, hat, -, -⟩ | ⟨-, he⟩
  · exact absurd hat (hnone k)
  · exact he

/-- A scan of a buffer with the magic at its front changes nothing. -/
theorem scan_of_aligned {s : State} (h : magicAt s.cfg s.tr.rx 0) : scan s = (s, true) :=
  scan_of_first h nofun

end Machine

end Sys2Proof
end

section
/-! PROOFS. What a POLL does after its drain and scan, by what stands at the front of the buffer (42_transport.md R154 to
R158). -/

namespace Sys2Proof.Machine

/-- A drain and a scan write the buffer, the input and the three counters of the framing only. -/
theorem scan_drain_framing (s : State) :
    ∃ rx overflow resyncDrops badMagic, (scan (drain s)).1 = { s with
      tr := { s.tr with rx := rx, inQ := [] }
      cnt := { s.cnt with overflow := overflow, resyncDrops := resyncDrops, badMagic := badMagic } } := by
  have hfold (bytes : List Byte) : ∃ n, (bytes.foldl drainByte s).cnt = { s.cnt with overflow := n } := by
    induction bytes using List.reverseRecOn with
    | nil => exact ⟨_, rfl⟩
    | append_singleton bytes x ih =>
      obtain ⟨n, hn⟩ := ih
      rw [List.foldl_append, List.foldl_cons, List.foldl_nil]
      rcases drainByte_cases (bytes.foldl drainByte s) x with ⟨-, he⟩ | ⟨-, he⟩ <;> rw [he]
      · exact ⟨n, hn⟩
      · exact ⟨wrapAdd (bytes.foldl drainByte s).cfg.counterW n 1, by simp [raise, hn, Counters.add]⟩
  obtain ⟨n, hn⟩ := hfold s.tr.inQ
  have hdrain : (drain s).cnt = { s.cnt with overflow := n } := hn
  obtain ⟨rx, cnt, hu⟩ := drain_frame s
  obtain rfl : cnt = { s.cnt with overflow := n } := by simpa [hu] using hdrain
  rcases scan_cases (drain s) with ⟨_, -, -, he⟩ | ⟨-, he⟩ <;>
    · rw [he, resyncDrop_eq, hu]
      exact ⟨_, _, _, _, rfl⟩

theorem scan_drain_cfg (s : State) : (scan (drain s)).1.cfg = s.cfg := by
  obtain ⟨_, _, he⟩ := scan_drain_frame s
  rw [he]

theorem exec_poll {s : State} (hlive : s.live = true) (now : Nat) : exec (.poll now) s = .next (runPoll now s) :=
  whenLive_of_live hlive

theorem runPoll_of_found {s : State} (h : (scan (drain s)).2 = true) (now : Nat) :
    runPoll now s = pollAligned now (scan (drain s)).1 := if_pos h

theorem runPoll_of_not_found {s : State} (h : (scan (drain s)).2 = false) (now : Nat) :
    runPoll now s = returning (.poll .noFrame) (scan (drain s)).1 := if_neg (Bool.eq_false_iff.1 h)

theorem pollAligned_of_incomplete {s : State} (now : Nat)
    (h : s.tr.rx.length < headerSize ∨ (headerSize ≤ declaredLength s.tr.rx ∧
      declaredLength s.tr.rx ≤ s.cfg.rxCap ∧ s.tr.rx.length < declaredLength s.tr.rx)) :
    pollAligned now s = returning (.poll .noFrame) s := by
  rcases pollAligned_cases now s with ⟨-, he⟩ | ⟨_, _, -⟩ | ⟨-, -, -, he⟩ | ⟨_, _, _, -⟩
  · exact he
  · omega
  · exact he
  · omega

theorem runPoll_of_incomplete {s : State} (now : Nat) (hfound : (scan (drain s)).2 = true)
    (h : let u := (scan (drain s)).1
      u.tr.rx.length < headerSize ∨ (headerSize ≤ declaredLength u.tr.rx ∧
        declaredLength u.tr.rx ≤ s.cfg.rxCap ∧ u.tr.rx.length < declaredLength u.tr.rx)) :
    runPoll now s = returning (.poll .noFrame) (scan (drain s)).1 := by
  rw [runPoll_of_found hfound]
  exact pollAligned_of_incomplete now (scan_drain_cfg s ▸ h)

theorem pollAligned_of_badLength {s : State} (now : Nat) (hheader : headerSize ≤ s.tr.rx.length)
    (h : declaredLength s.tr.rx < headerSize ∨ s.cfg.rxCap < declaredLength s.tr.rx) :
    pollAligned now s = returning (.poll .badLength) (raise .badLength 0 (dropFront 1 s)) := by
  rcases pollAligned_cases now s with ⟨_, -⟩ | ⟨-, -, he⟩ | ⟨_, _, -, -⟩ | ⟨_, _, -, -⟩
  · omega
  · exact he
  · omega
  · omega

theorem pollAligned_of_complete {s : State} (now : Nat) (hlow : headerSize ≤ declaredLength s.tr.rx)
    (hhigh : declaredLength s.tr.rx ≤ s.cfg.rxCap) (hall : declaredLength s.tr.rx ≤ s.tr.rx.length) :
    pollAligned now s = returning (.poll .dispatched)
      (dispatchFrame (frameOfBytes (s.tr.rx.take (declaredLength s.tr.rx)))
        (extract now (declaredLength s.tr.rx) s)) := by
  rcases pollAligned_cases now s with ⟨_, -⟩ | ⟨_, _, -⟩ | ⟨_, _, _, -⟩ | ⟨-, -, -, he⟩
  · omega
  · omega
  · omega
  · exact he

end Sys2Proof.Machine
end

section
/-! PROOFS. What the dispatch of a frame reads, counts and answers (42_transport.md R157 to R160). -/

namespace Sys2Proof

theorem declaredLength_append {b : List Byte} (h : 6 ≤ b.length) (rest : List Byte) :
    declaredLength (b ++ rest) = declaredLength b := by
  simp only [declaredLength, byteAt]
  rw [List.getD_append _ _ _ _ (by omega), List.getD_append _ _ _ _ (by omega)]

/-- The header fields of a whole frame at the front of a buffer are the buffer's bytes 6 to 9. -/
theorem frameOfBytes_take_header {b : List Byte} {length : Nat} (hheader : headerSize ≤ length)
    (hall : length ≤ b.length) :
    let f := frameOfBytes (b.take length)
    [f.seq, f.objectId, f.cmdId, f.flags] = (b.drop 6).take 4 := by
  simp only [headerSize] at hheader
  have hbyte {i : Nat} (hi : i < 10) : byteAt (b.take length) i = b[i] := by
    rw [byteAt, List.getD_eq_getElem _ _ (by simp; omega), List.getElem_take]
  refine List.ext_getElem (by simp; omega) fun i hi _ => ?_
  simp only [List.length_cons, List.length_nil] at hi
  interval_cases i <;> simp [frameOfBytes, hbyte]

namespace Machine

open Sys2Proof.Claim

/-- A frame begins with the magic. -/
theorem magicAt_frameBytes_append (c : Config) (f : Frame) (rest : List Byte) :
    magicAt c (frameBytes c f ++ rest) 0 := by
  simp [magicAt, frameBytes]

theorem dispatchFrame_eq_finish_handle (f : Frame) (s : State) :
    dispatchFrame f s = finish f (handle (select s.cfg f) s) := by
  rw [dispatchFrame_eq_finish, encode_select, frameOfBytes_frameBytes]

/-- A dispatch answers one frame with the header of the request. -/
theorem dispatchFrame_eq_answered (f : Frame) (s : State) :
    ∃ t out, t.tr = s.tr ∧ t.cfg = s.cfg ∧ out.length ≤ s.cfg.txCap - headerSize ∧
      dispatchFrame f s = answered t f.seq f.objectId f.cmdId f.flags out := by
  obtain ⟨htr, hcfg⟩ := (handle_form (select s.cfg f)).tr_cfg s
  obtain ⟨t, out, httr, htcfg, hlen, hanswer⟩ := finish_eq_answered (handle (select s.cfg f) s)
  rw [dispatchFrame_eq_finish_handle]
  exact ⟨t, out, httr.trans htr, htcfg.trans hcfg, hcfg ▸ hlen, hanswer f⟩

/-! ### The counters of a dispatch -/

theorem withFloat_failed {write : F32 → State → State} {p : List Byte} {s : State} {why : ErrorClass}
    (h : (withFloat write p s).2 = .failed why) : why = .payload := by
  rcases withFloat_cases write p s with ⟨_, _, _, _, -, he⟩ | ⟨-, he⟩ <;> rw [he] at h <;> cases h
  rfl

theorem withByte_failed {write : Byte → State → State} {p : List Byte} {s : State} {why : ErrorClass}
    (h : (withByte write p s).2 = .failed why) : why = .payload := by
  rcases withByte_cases write p s with ⟨_, -, he⟩ | ⟨-, he⟩ <;> rw [he] at h <;> cases h
  rfl

theorem withRecord_failed {size : Nat} {record : State → List Byte} {s : State} {why : ErrorClass}
    (h : (withRecord size record s).2 = .failed why) : why = .statusCap := by
  rcases withRecord_cases size record s with ⟨-, he⟩ | ⟨-, he⟩ <;> rw [he] at h <;> cases h
  rfl

/-- The classes in which a handler, or the lack of one, can fail (60_exceptions.md R210). -/
theorem handle_failed {i : Instr} {s : State} {why : ErrorClass} (h : (handle i s).2 = .failed why) :
    why = .payload ∨ why = .statusCap ∨ why = .noHandler ∨ why = .unknownCmd := by
  cases i with
  | reset | rx | poll | tick | ok | readCounters | txDrain => cases h
  | readStatus | readComposite => exact .inr (.inl (withRecord_failed h))
  | setSp | setCv | setKp | setKi | setKd | setPvMin | setPvMax | setCtrlSp => exact .inl (withFloat_failed h)
  | setMode | setOuterMode | setInnerMode => exact .inl (withByte_failed h)
  | noHandler =>
    cases h
    exact .inr (.inr (.inl rfl))
  | unknownCmd =>
    cases h
    exact .inr (.inr (.inr rfl))

theorem HandlerForm.cnt {h : State → State × Reply} (hf : HandlerForm h) (s : State) : (h s).1.cnt = s.cnt := by
  cases hf <;> rfl

/-- A dispatch counts a miss or a failure, or nothing. -/
theorem dispatchFrame_cnt (f : Frame) (s : State) :
    ∃ noHandler handlerFalse,
      (dispatchFrame f s).cnt = { s.cnt with noHandler := noHandler, handlerFalse := handlerFalse } := by
  rw [dispatchFrame_eq_finish_handle]
  have hcnt := (handle_form (select s.cfg f)).cnt s
  rcases finish_cases f (handle (select s.cfg f) s) with ⟨buf, -, he⟩ | ⟨why, hwhy, he⟩ <;> rw [he, ← hcnt]
  · exact ⟨_, _, rfl⟩
  · rcases handle_failed hwhy with rfl | rfl | rfl | rfl <;> exact ⟨_, _, rfl⟩

/-! ### What a dispatch reads -/

/-- A state without what no dispatch reads: the buffer, the input, the liveness, the counters of the framing and the last
result. -/
def State.served (s : State) : State :=
  { s with
    tr := { TransportState.atReset with outQ := s.tr.outQ }
    cnt := { Counters.zero with noHandler := s.cnt.noHandler, handlerFalse := s.cnt.handlerFalse }
    result := .none }

/-- A handler that neither reads nor writes any of that. -/
def ServedOnly (h : State → State × Reply) : Prop := ∀ s, h s.served = ((h s).1.served, (h s).2)

theorem ServedOnly.withFloat {write : F32 → State → State} (h : ∀ v s, write v s.served = (write v s).served)
    (p : List Byte) : ServedOnly (Machine.withFloat write p) := by
  intro s
  unfold Machine.withFloat
  split
  · rw [h]
  · rfl

theorem ServedOnly.withByte {write : Byte → State → State} (h : ∀ b s, write b s.served = (write b s).served)
    (p : List Byte) : ServedOnly (Machine.withByte write p) := by
  intro s
  unfold Machine.withByte
  split
  · rw [h]
  · rfl

theorem ServedOnly.withRecord {record : State → List Byte} (h : ∀ s, record s.served = record s) (size : Nat) :
    ServedOnly (Machine.withRecord size record) := by
  intro s
  have hcfg : s.served.cfg = s.cfg := rfl
  rw [Machine.withRecord, Machine.withRecord, hcfg, h]
  split <;> rfl

theorem handle_servedOnly (i : Instr) : ServedOnly (handle i) := by
  cases i with
  | reset | rx | poll | tick | ok | readCounters | txDrain | noHandler | unknownCmd => exact fun _ => rfl
  | readStatus | readComposite =>
    refine .withRecord ?_ _
    exact fun _ => rfl
  | setSp | setCv | setKp | setKi | setKd | setPvMin | setPvMax | setCtrlSp =>
    rw [handle]
    refine .withFloat ?_ _
    exact fun _ _ => rfl
  | setMode | setOuterMode | setInnerMode =>
    refine .withByte ?_ _
    exact fun _ _ => rfl

theorem finish_served (req : Frame) (s : State) (reply : Reply) :
    (finish req (s.served, reply)).served = (finish req (s, reply)).served := by
  cases reply with
  | done buf => rfl
  | failed why => cases why <;> rfl

theorem dispatchFrame_served (f : Frame) (s : State) :
    (dispatchFrame f s.served).served = (dispatchFrame f s).served := by
  have hcfg : s.served.cfg = s.cfg := rfl
  rw [dispatchFrame_eq_finish_handle, dispatchFrame_eq_finish_handle, hcfg,
    handle_servedOnly, finish_served]

/-- States that differ only in what no dispatch reads are dispatched on alike. -/
theorem dispatchFrame_served_congr {s t : State} (h : s.served = t.served) (f : Frame) :
    (dispatchFrame f s).served = (dispatchFrame f t).served := by
  rw [← dispatchFrame_served f s, h, dispatchFrame_served]

/-! ### A POLL by its verdict -/

/-- A POLL drops and counts, or dispatches the whole frame at the front of what its drain and scan leave. -/
theorem runPoll_dispatches_or_not (now : Nat) (s : State) :
    (runPoll now s = returning (.poll .noFrame) (scan (drain s)).1 ∨
      runPoll now s = returning (.poll .badLength) (raise .badLength 0 (dropFront 1 (scan (drain s)).1))) ∨
    ∃ length, headerSize ≤ length ∧ length ≤ (scan (drain s)).1.tr.rx.length ∧
      runPoll now s = returning (.poll .dispatched)
        (dispatchFrame (frameOfBytes ((scan (drain s)).1.tr.rx.take length))
          (extract now length (scan (drain s)).1)) := by
  cases hfound : (scan (drain s)).2 with
  | false => exact .inl (.inl (runPoll_of_not_found hfound now))
  | true =>
    rw [runPoll_of_found hfound]
    rcases pollAligned_cases now (scan (drain s)).1 with ⟨-, h⟩ | ⟨-, -, h⟩ | ⟨-, -, -, h⟩ | ⟨hlow, -, hall, h⟩
    · exact .inl (.inl h)
    · exact .inl (.inr h)
    · exact .inl (.inl h)
    · exact .inr ⟨_, hlow, hall, h⟩

/-- A buffer that begins with a frame that fits it is dispatched on. -/
theorem pollAligned_of_frame {s : State} {f : Frame} {rest : List Byte} (hc : s.cfg.wf = true)
    (hfits : payloadFits s.cfg f.payload = true) (hrx : s.tr.rx = frameBytes s.cfg f ++ rest) (now : Nat) :
    pollAligned now s =
      returning (.poll .dispatched) (dispatchFrame f (extract now (frameBytes s.cfg f).length s)) := by
  obtain ⟨-, hcap⟩ := Config.wf_bounds hc
  have hlen : headerSize + f.payload.length ≤ s.cfg.rxCap := of_decide_eq_true hfits
  have hsize := frameBytes_length s.cfg f
  have hdeclared : declaredLength s.tr.rx = (frameBytes s.cfg f).length := by
    rw [hrx, declaredLength_append (by simp only [headerSize] at hsize; omega),
      declaredLength_frameBytes _ _ (by omega), hsize]
  have hwhole : (frameBytes s.cfg f).length ≤ s.tr.rx.length := by simp [hrx]
  have htake : s.tr.rx.take (frameBytes s.cfg f).length = frameBytes s.cfg f := by rw [hrx, List.take_left]
  rw [pollAligned_of_complete now (by omega) (by omega) (by omega), hdeclared, htake, frameOfBytes_frameBytes]

/-- The extraction of a frame leaves the bytes behind it. -/
theorem extract_of_frame {s : State} {frame rest : List Byte} (hrx : s.tr.rx = frame ++ rest) (now : Nat) :
    extract now frame.length s =
      { s with tr := { s.tr with rx := rest, received := true, lastFrameTime := now } } := by
  rw [extract, dropFront, hrx, List.drop_left]
  rfl

/-- A POLL whose drain and scan leave a well-formed command's frame in front runs that command. -/
theorem runPoll_of_encode {s : State} {i : Instr} {rest : List Byte} (hc : s.cfg.wf = true) (hw : i.space = .wire)
    (hi : i.wf s.cfg = true) (now : Nat) (hfound : (scan (drain s)).2 = true)
    (hrx : (scan (drain s)).1.tr.rx = encode s.cfg i ++ rest) :
    let u := (scan (drain s)).1
    runPoll now s = returning (.poll .dispatched)
      (run i { u with tr := { u.tr with rx := rest, received := true, lastFrameTime := now } }) := by
  intro u
  have hcfg : u.cfg = s.cfg := scan_drain_cfg s
  rw [encode_eq_frameBytes hw, ← hcfg] at hrx
  rw [runPoll_of_found hfound, pollAligned_of_frame (hcfg ▸ hc) (hcfg ▸ payloadFits_of_wf hw hi) hrx,
    extract_of_frame hrx, dispatchFrame, run_of_wire hw, hcfg, select_frameOfBytes_encode hc hw hi]

end Machine

end Sys2Proof
end

section
/-! PROOFS. Bytes delivered in pieces, with one frame among them (42_transport.md R167): until the frame is whole each POLL
keeps it, the POLL that completes it dispatches it, and no POLL after that finds a magic. -/

namespace Sys2Proof.Machine

/-! ### Where the magic stands -/

theorem magicAt_length_le {c : Config} {b : List Byte} {k : Nat} (h : magicAt c b k) : k + 4 ≤ b.length := by
  have hlen := h.length_le
  rw [le32_length, List.length_drop] at hlen
  omega

/-- Later bytes neither make nor break a magic that is whole. -/
theorem magicAt_append_iff {c : Config} {b rest : List Byte} {k : Nat} (hk : k + 4 ≤ b.length) :
    magicAt c (b ++ rest) k ↔ magicAt c b k := by
  rw [magicAt, magicAt, List.drop_append_of_le_length (by omega)]
  refine ⟨fun h => ?_, fun h => h.trans (List.prefix_append _ _)⟩
  exact List.prefix_of_prefix_length_le h (List.prefix_append _ _) (by simp; omega)

/-- A magic behind bytes that are dropped. -/
theorem magicAt_drop_iff {c : Config} {b : List Byte} {n k : Nat} :
    magicAt c (b.drop n) k ↔ magicAt c b (n + k) := by
  rw [magicAt, magicAt, List.drop_drop]

theorem not_magicAt_of_append {c : Config} {b rest : List Byte} (h : ∀ k, ¬ magicAt c (b ++ rest) k) (k : Nat) :
    ¬ magicAt c b k :=
  fun hk => h k ((magicAt_append_iff (magicAt_length_le hk)).2 hk)

theorem not_magicAt_of_suffix {c : Config} {b b' : List Byte} (hs : b' <:+ b) (h : ∀ k, ¬ magicAt c b k) (k : Nat) :
    ¬ magicAt c b' k := by
  rw [List.suffix_iff_eq_drop.1 hs, magicAt_drop_iff]
  exact h _

/-! ### One delivery -/

theorem scan_drain_served (s : State) : (scan (drain s)).1.served = s.served := by
  obtain ⟨_, _, _, _, he⟩ := scan_drain_framing s
  rw [he]
  rfl

/-- Delivered bytes that fit join the buffer. -/
theorem drain_runRx_of_fits {s : State} {bytes : List Byte} (hcap : 1 ≤ s.cfg.rxCap) (hin : s.tr.inQ = [])
    (hfits : (s.tr.rx ++ bytes).length ≤ s.cfg.rxCap) :
    drain (runRx bytes s) = returning .none (setTr { s.tr with rx := s.tr.rx ++ bytes } s) := by
  have hwait : (runRx bytes s).tr.inQ = bytes := by simp [runRx, hin]
  have hdrain := drain_of_fits (s := runRx bytes s) hcap (by rw [hwait]; exact hfits)
  rw [hwait] at hdrain
  rw [hdrain]
  simp [runRx, returning, setInQ, setTr, hin]

/-- Delivered bytes leave a suffix of the waiting ones, within the buffer's bound. -/
theorem drain_runRx_suffix {s : State} (hcap : 1 ≤ s.cfg.rxCap) (hin : s.tr.inQ = [])
    (hrx : s.tr.rx.length ≤ s.cfg.rxCap) (bytes : List Byte) :
    (drain (runRx bytes s)).tr.rx <:+ s.tr.rx ++ bytes := by
  have hwait : (runRx bytes s).tr.inQ = bytes := by simp [runRx, hin]
  rw [drain_eq (s := runRx bytes s) hcap hrx, hwait]
  exact List.drop_suffix _ _

/-! ### After the frame -/

/-- Nothing that waits, or is yet to be delivered, holds a magic. -/
structure Quiet (c : Config) (undelivered : List Byte) (s : State) : Prop where
  cfg : s.cfg = c
  inputEmpty : s.tr.inQ = []
  rxBounded : s.tr.rx.length ≤ c.rxCap
  noMagic : ∀ k, ¬ magicAt c (s.tr.rx ++ undelivered) k

theorem Quiet.poll {c : Config} (hc : c.wf = true) {bytes rest : List Byte} {s : State} (h : Quiet c (bytes ++ rest) s)
    (now : Nat) :
    let t := runPoll now (runRx bytes s)
    pollVerdict t = some .noFrame ∧ t.served = s.served ∧ Quiet c rest t := by
  intro t
  obtain ⟨rfl, hin, hrx, hnone⟩ := h
  have hcap := Config.wf_rxCap hc
  have hcfg : (drain (runRx bytes s)).cfg = s.cfg := by
    obtain ⟨_, _, he⟩ := drain_frame (runRx bytes s)
    rw [he]
    rfl
  have hsuffix := drain_runRx_suffix (le_trans (by decide) hcap) hin hrx bytes
  rw [← List.append_assoc] at hnone
  have hscan := scan_of_none (s := drain (runRx bytes s))
    (hcfg ▸ not_magicAt_of_suffix hsuffix (not_magicAt_of_append hnone))
  have ht : t = returning (.poll .noFrame) (scan (drain (runRx bytes s))).1 :=
    runPoll_of_not_found (congrArg Prod.snd hscan) now
  have htrx : t.tr.rx = (drain (runRx bytes s)).tr.rx.drop ((drain (runRx bytes s)).tr.rx.length - 3) := by
    rw [ht, hscan]
    exact resyncDrop_rx _ _
  have htin : t.tr.inQ = [] := by
    obtain ⟨_, _, he⟩ := scan_drain_frame (runRx bytes s)
    rw [ht, he]
    rfl
  refine ⟨by rw [ht]; rfl, by rw [ht]; exact scan_drain_served _, ?_⟩
  refine ⟨by rw [ht]; exact scan_drain_cfg _, htin, ?_, ?_⟩
  · rw [htrx, List.length_drop]
    simp only [headerSize] at hcap
    omega
  · refine not_magicAt_of_suffix ?_ hnone
    obtain ⟨front, hfront⟩ : t.tr.rx <:+ s.tr.rx ++ bytes := htrx ▸ (List.drop_suffix _ _).trans hsuffix
    exact ⟨front, by rw [← List.append_assoc, hfront]⟩

/-- Deliveries without a magic serve nothing. -/
theorem deliver_of_quiet {c : Config} (hc : c.wf = true) (pieces : List (List Byte × Nat)) {s : State}
    (h : Quiet c (pieces.map Prod.fst).flatten s) :
    (∀ v ∈ (deliver pieces s).1, v = some .noFrame) ∧ (deliver pieces s).2.served = s.served := by
  induction pieces generalizing s with
  | nil => exact ⟨nofun, rfl⟩
  | cons piece rest ih =>
    obtain ⟨hverdict, hserved, hquiet⟩ := h.poll hc piece.2
    obtain ⟨hall, hlater⟩ := ih hquiet
    exact ⟨List.forall_mem_cons.2 ⟨hverdict, hall⟩, hlater.trans hserved⟩

/-! ### Up to the frame -/

/-- A frame is on its way: it stands behind junk in what waits and is yet to be delivered, no magic begins before it, and
what waits is shorter than it. -/
structure Searching (c : Config) (f : Frame) (behind undelivered : List Byte) (s : State) : Prop where
  cfg : s.cfg = c
  inputEmpty : s.tr.inQ = []
  short : s.tr.rx.length < (frameBytes c f).length
  frame : ∃ junk, s.tr.rx ++ undelivered = junk ++ frameBytes c f ++ behind ∧
    ∀ k < junk.length, ¬ magicAt c (junk ++ frameBytes c f) k

section

variable {c : Config} {f : Frame} {junk behind b rest : List Byte} (hwait : b ++ rest = junk ++ frameBytes c f ++ behind)

include hwait

/-- No magic begins before the frame in what has come so far. -/
theorem not_magicAt_before_frame (hfirst : ∀ k < junk.length, ¬ magicAt c (junk ++ frameBytes c f) k) :
    ∀ k < junk.length, ¬ magicAt c b k := by
  intro k hk hat
  have hsize := frameBytes_length c f
  have hwhole : k + 4 ≤ (junk ++ frameBytes c f).length := by simp only [List.length_append, headerSize] at *; omega
  have hlater := (magicAt_append_iff (rest := rest) (magicAt_length_le hat)).2 hat
  rw [hwait, magicAt_append_iff hwhole] at hlater
  exact hfirst k hk hlater

/-- Once the frame's magic has come it stands behind the junk. -/
theorem magicAt_frame (hcome : junk.length + 4 ≤ b.length) : magicAt c b junk.length := by
  have hat := magicAt_frameBytes_append c f behind
  rwa [← magicAt_append_iff (rest := rest) hcome, hwait, List.append_assoc, ← Nat.add_zero junk.length,
    ← magicAt_drop_iff, List.drop_left]

end

/-- Before the frame's magic has come a POLL keeps the last 3 bytes, and with them what has come of it. -/
theorem scan_of_magic_to_come {c : Config} {f : Frame} {junk behind rest : List Byte} {d : State} (hcfg : d.cfg = c)
    (hin : d.tr.inQ = []) (hwait : d.tr.rx ++ rest = junk ++ frameBytes c f ++ behind)
    (hfirst : ∀ k < junk.length, ¬ magicAt c (junk ++ frameBytes c f) k) (hcome : d.tr.rx.length < junk.length + 4) :
    (scan d).2 = false ∧ Searching c f behind rest (scan d).1 := by
  have hnone : ∀ k, ¬ magicAt d.cfg d.tr.rx k := by
    intro k hat
    have hlen := magicAt_length_le hat
    rw [hcfg] at hat
    exact not_magicAt_before_frame hwait hfirst k (by omega) hat
  rw [scan_of_none hnone, resyncDrop_frame]
  generalize hn : d.tr.rx.length - 3 = n
  have hsize := frameBytes_length c f
  refine ⟨rfl, hcfg, hin, ?_, junk.drop n, ?_, fun k hk hat => ?_⟩
  · simp only [List.length_drop, headerSize] at *
    omega
  · calc d.tr.rx.drop n ++ rest
      _ = (d.tr.rx ++ rest).drop n := (List.drop_append_of_le_length (by omega)).symm
      _ = junk.drop n ++ frameBytes c f ++ behind := by
        rw [hwait, List.append_assoc, List.drop_append_of_le_length (by omega), List.append_assoc]
  · rw [← List.drop_append_of_le_length (by omega), magicAt_drop_iff] at hat
    rw [List.length_drop] at hk
    exact hfirst (n + k) (by omega) hat

/-- Once it has come a POLL drops the junk, so that what waits begins with what has come of the frame. -/
theorem scan_of_magic_come {c : Config} {f : Frame} {junk behind rest : List Byte} {d : State} (hcfg : d.cfg = c)
    (hwait : d.tr.rx ++ rest = junk ++ frameBytes c f ++ behind)
    (hfirst : ∀ k < junk.length, ¬ magicAt c (junk ++ frameBytes c f) k) (hcome : junk.length + 4 ≤ d.tr.rx.length) :
    (scan d).2 = true ∧ (scan d).1.tr.rx ++ rest = frameBytes c f ++ behind := by
  subst hcfg
  rw [scan_of_first (magicAt_frame hwait hcome) (not_magicAt_before_frame hwait hfirst), resyncDrop_rx]
  refine ⟨rfl, ?_⟩
  rw [← List.drop_append_of_le_length (by omega), hwait, List.append_assoc, List.drop_left]

/-- A buffer that begins with what has come of a frame waits for the rest of it. -/
theorem pollAligned_of_part {c : Config} {f : Frame} (hc : c.wf = true) (hfits : payloadFits c f.payload = true)
    {behind rest : List Byte} {u : State} (hcfg : u.cfg = c) (hwait : u.tr.rx ++ rest = frameBytes c f ++ behind)
    (hpart : u.tr.rx.length < (frameBytes c f).length) (now : Nat) :
    pollAligned now u = returning (.poll .noFrame) u := by
  subst hcfg
  obtain ⟨-, hcap⟩ := Config.wf_bounds hc
  have hlen : headerSize + f.payload.length ≤ u.cfg.rxCap := of_decide_eq_true hfits
  have hsize := frameBytes_length u.cfg f
  apply pollAligned_of_incomplete
  by_cases hheader : u.tr.rx.length < headerSize
  · exact .inl hheader
  have hdeclared : declaredLength u.tr.rx = headerSize + f.payload.length := by
    calc declaredLength u.tr.rx
      _ = declaredLength (u.tr.rx ++ rest) := (declaredLength_append (by simp only [headerSize] at hheader; omega) _).symm
      _ = declaredLength (frameBytes u.cfg f) := by
        rw [hwait, declaredLength_append (by simp only [headerSize] at hsize; omega)]
      _ = headerSize + f.payload.length := declaredLength_frameBytes _ _ (by omega)
  exact .inr ⟨by omega, by omega, by omega⟩

/-- A buffer that holds the whole frame is dispatched on, and the bytes after the frame stay. -/
theorem pollAligned_of_whole {c : Config} {f : Frame} (hc : c.wf = true) (hfits : payloadFits c f.payload = true)
    {behind rest : List Byte} {u : State} (hcfg : u.cfg = c) (hin : u.tr.inQ = []) (hrx : u.tr.rx.length ≤ c.rxCap)
    (hwait : u.tr.rx ++ rest = frameBytes c f ++ behind) (hwhole : (frameBytes c f).length ≤ u.tr.rx.length) (now : Nat) :
    let t := pollAligned now u
    pollVerdict t = some .dispatched ∧ t.served = (dispatchFrame f u).served ∧
      ((∀ k, ¬ magicAt c behind k) → Quiet c rest t) := by
  subst hcfg
  intro t
  obtain ⟨tail, htail⟩ : frameBytes u.cfg f <+: u.tr.rx :=
    List.prefix_of_prefix_length_le (hwait ▸ List.prefix_append _ _) (List.prefix_append _ rest) hwhole
  have hbehind : tail ++ rest = behind := by
    rw [← htail, List.append_assoc] at hwait
    exact List.append_cancel_left hwait
  have hshorter : tail.length ≤ u.tr.rx.length := by simp [← htail]
  have ht : t = returning (.poll .dispatched) (dispatchFrame f (extract now (frameBytes u.cfg f).length u)) :=
    pollAligned_of_frame hc hfits htail.symm now
  have hextract : (extract now (frameBytes u.cfg f).length u).served = u.served := rfl
  refine ⟨by rw [ht]; rfl, by rw [ht]; exact dispatchFrame_served_congr hextract f, fun hnone => ?_⟩
  rw [extract_of_frame htail.symm] at ht
  obtain ⟨_, _, _, _, _, _, hframe⟩ := dispatchFrame_frame f
    { u with tr := { u.tr with rx := tail, received := true, lastFrameTime := now } }
  rw [ht, hframe]
  exact ⟨rfl, hin, hshorter.trans hrx, fun k => hbehind ▸ hnone k⟩

/-- A delivery that leaves room for the frame keeps it on its way, or completes it and dispatches it. -/
theorem Searching.poll {c : Config} {f : Frame} (hc : c.wf = true) (hfits : payloadFits c f.payload = true)
    {bytes behind rest : List Byte} {s : State} (h : Searching c f behind (bytes ++ rest) s)
    (hroom : bytes.length + (frameBytes c f).length ≤ c.rxCap) (now : Nat) :
    let t := runPoll now (runRx bytes s)
    (pollVerdict t = some .noFrame ∧ t.served = s.served ∧ Searching c f behind rest t) ∨
      (pollVerdict t = some .dispatched ∧ t.served = (dispatchFrame f s).served ∧
        ((∀ k, ¬ magicAt c behind k) → Quiet c rest t)) := by
  intro t
  obtain ⟨rfl, hin, hshort, junk, hwait, hfirst⟩ := h
  have hlen : (s.tr.rx ++ bytes).length ≤ s.cfg.rxCap := by rw [List.length_append]; omega
  have hdrain := drain_runRx_of_fits (le_trans (by decide) (Config.wf_rxCap hc)) hin hlen
  have hdrx : (drain (runRx bytes s)).tr.rx = s.tr.rx ++ bytes := by rw [hdrain]; rfl
  have hdcfg : (drain (runRx bytes s)).cfg = s.cfg := by rw [hdrain]; rfl
  have hdin : (drain (runRx bytes s)).tr.inQ = [] := by rw [hdrain]; exact hin
  have hserved : (scan (drain (runRx bytes s))).1.served = s.served := scan_drain_served _
  rw [← List.append_assoc, ← hdrx] at hwait
  rw [← hdrx] at hlen
  by_cases hcome : (drain (runRx bytes s)).tr.rx.length < junk.length + 4
  · obtain ⟨hnot, hkept⟩ := scan_of_magic_to_come hdcfg hdin hwait hfirst hcome
    have ht : t = returning (.poll .noFrame) (scan (drain (runRx bytes s))).1 := runPoll_of_not_found hnot now
    rw [ht]
    exact .inl ⟨rfl, hserved, { hkept with }⟩
  obtain ⟨hfound, hfront⟩ := scan_of_magic_come hdcfg hwait hfirst (not_lt.1 hcome)
  have ht : t = pollAligned now (scan (drain (runRx bytes s))).1 := runPoll_of_found hfound now
  obtain ⟨_, _, hu⟩ := scan_frame (drain (runRx bytes s))
  have hucfg : (scan (drain (runRx bytes s))).1.cfg = s.cfg := by rw [hu]; exact hdcfg
  have huin : (scan (drain (runRx bytes s))).1.tr.inQ = [] := by rw [hu]; exact hdin
  rw [ht]
  by_cases hpart : (scan (drain (runRx bytes s))).1.tr.rx.length < (frameBytes s.cfg f).length
  · rw [pollAligned_of_part hc hfits hucfg hfront hpart]
    exact .inl ⟨rfl, hserved, hucfg, huin, hpart, [], hfront, nofun⟩
  · have hbounded : (scan (drain (runRx bytes s))).1.tr.rx.length ≤ s.cfg.rxCap := by
      have hlen' := congrArg List.length hwait
      have hulen := congrArg List.length hfront
      simp only [List.length_append] at hlen' hulen
      omega
    obtain ⟨hverdict, hdispatch, hquiet⟩ :=
      pollAligned_of_whole hc hfits hucfg huin hbounded hfront (not_lt.1 hpart) now
    exact .inr ⟨hverdict, hdispatch.trans (dispatchFrame_served_congr hserved f), hquiet⟩

/-- Among the deliveries exactly one dispatches, the others see no frame, and together they serve that frame. -/
theorem deliver_of_searching {c : Config} {f : Frame} (hc : c.wf = true) (hfits : payloadFits c f.payload = true)
    {behind : List Byte} (hbehind : ∀ k, ¬ magicAt c behind k) (pieces : List (List Byte × Nat)) {s : State}
    (hroom : ∀ piece ∈ pieces, piece.1.length + (frameBytes c f).length ≤ c.rxCap)
    (h : Searching c f behind (pieces.map Prod.fst).flatten s) :
    (deliver pieces s).1.count (some .dispatched) = 1 ∧
      (∀ v ∈ (deliver pieces s).1, v = some .dispatched ∨ v = some .noFrame) ∧
      (deliver pieces s).2.served = (dispatchFrame f s).served := by
  induction pieces generalizing s with
  | nil =>
    obtain ⟨-, -, hshort, junk, hwait, -⟩ := h
    have hlen := congrArg List.length hwait
    simp only [List.map_nil, List.flatten_nil, List.append_nil, List.length_append] at hlen
    omega
  | cons piece rest ih =>
    obtain ⟨hpiece, hrest⟩ := List.forall_mem_cons.1 hroom
    rcases h.poll hc hfits hpiece piece.2 with ⟨hverdict, hserved, hkept⟩ | ⟨hverdict, hserved, hquiet⟩
    · obtain ⟨hcount, hall, hlater⟩ := ih hrest hkept
      refine ⟨?_, List.forall_mem_cons.2 ⟨.inr hverdict, hall⟩, hlater.trans (dispatchFrame_served_congr hserved f)⟩
      rw [deliver, hverdict]
      exact (List.count_cons_of_ne (by decide)).trans hcount
    · obtain ⟨hall, hlater⟩ := deliver_of_quiet hc rest (hquiet hbehind)
      refine ⟨?_, List.forall_mem_cons.2 ⟨.inl hverdict, fun v hv => .inr (hall v hv)⟩, hlater.trans hserved⟩
      rw [deliver, hverdict]
      refine List.count_cons_self.trans (congrArg (· + 1) (List.count_eq_zero.2 fun hmem => ?_))
      exact absurd (hall _ hmem) (by decide)

end Sys2Proof.Machine
end

section
/-! PROOFS. The obligations of 42_transport.md. -/

open Sys2Proof Sys2Proof.Machine Sys2Proof.Claim

/-- Settles O15: on a constructed block RX is its one write of the input. -/
theorem rxOnlyAppends : Obligations.RxOnlyAppends := fun _ _ hlive => whenLive_of_live hlive

/-- Settles O16: the age over the integers is no less than 0 exactly when `now` is not before the frame's time, and is then
their difference as natural numbers. -/
theorem okReportsLiveness : Obligations.OkReportsLiveness := by
  intro s now hlive
  have hverdict : livenessOk s.cfg s.tr now = (s.tr.received && decide (s.tr.lastFrameTime ≤ now) &&
      decide (now - s.tr.lastFrameTime ≤ s.cfg.livenessWindow)) := by
    rw [Bool.eq_iff_iff]
    simp only [livenessOk, Bool.and_eq_true, decide_eq_true_eq, and_assoc]
    refine and_congr_right fun _ => ?_
    omega
  rw [← hverdict]
  exact whenLive_of_live hlive

/-- Settles O17: on a constructed block READ_COUNTERS writes its result alone. -/
theorem readCountersReportsAllSix : Obligations.ReadCountersReportsAllSix := fun _ hlive => whenLive_of_live hlive

/-- Settles O18: on a constructed block TX_DRAIN is its one write of the output stream. -/
theorem txDrainReturnsAndEmpties : Obligations.TxDrainReturnsAndEmpties := fun _ hlive => whenLive_of_live hlive

/-- Settles O27: the bytes cut off are those of the whole buffers that overflowed, so the rest is (n − 1) mod RX_CAP + 1. -/
theorem drainKeepsTheNewestBytes : Obligations.DrainKeepsTheNewestBytes := by
  intro s hcap hrx b
  refine ⟨fun hb => drain_of_inQ_nil (List.append_eq_nil_iff.1 hb).2, fun hb => ?_⟩
  have hpos : 0 < b.length := List.length_pos_iff.2 hb
  have hmod := Nat.div_add_mod (b.length - 1) s.cfg.rxCap
  have hcut : s.cfg.rxCap * ((b.length - 1) / s.cfg.rxCap) = b.length - ((b.length - 1) % s.cfg.rxCap + 1) := by omega
  rw [← hcut]
  exact drain_eq hcap hrx

/-- Settles O28, by whether the scan finds the magic. -/
theorem scanAlignsOnTheFirstMagic : Obligations.ScanAlignsOnTheFirstMagic := by
  intro s
  rcases scan_cases s with ⟨k, hat, hfirst, he⟩ | ⟨hnone, he⟩ <;> rw [he]
  · exact ⟨k, resyncDrop_eq k s, fun j hj => .inl (hfirst j hj), fun _ => hat, nofun⟩
  · exact ⟨_, resyncDrop_eq _ s, fun _ _ => .inr rfl, nofun, fun _ => ⟨rfl, hnone⟩⟩

/-- Settles O29: with nothing waiting and the magic in front the drain and the scan change nothing, so that the second clause
is a case of the first. -/
theorem incompleteFrameConsumesNothing : Obligations.IncompleteFrameConsumesNothing := by
  intro s now hlive
  rw [exec_poll hlive]
  refine ⟨?_, fun hin hmagic hincomplete => congrArg _ ?_, fun hnone => congrArg _ (runPoll_of_not_found hnone now)⟩
  · intro hfound u hincomplete
    exact congrArg _ (runPoll_of_incomplete now hfound hincomplete)
  have hat : le32 s.cfg.magic <+: s.tr.rx := hmagic ▸ List.take_prefix 4 _
  have hscan : scan (drain s) = (s, true) := by
    rw [drain_of_inQ_nil hin]
    exact scan_of_aligned hat
  have hpoll := runPoll_of_incomplete (s := s) now
  rw [hscan] at hpoll
  exact hpoll rfl hincomplete

/-- Settles O30: a legal length is dispatched on or waited for, and neither counts a bad length. -/
theorem badLengthDropsOneByte : Obligations.BadLengthDropsOneByte := by
  intro s now hlive hfound u len hheader
  have hcfg : u.cfg = s.cfg := scan_drain_cfg s
  rw [exec_poll hlive, runPoll_of_found hfound]
  refine ⟨fun hbad => ?_, fun hlow hhigh => ⟨_, rfl, ?_⟩⟩
  · rw [pollAligned_of_badLength now hheader (hcfg ▸ hbad)]
    simp only [counted, ← hcfg]
    rfl
  · have hcnt : u.cnt.badLength = s.cnt.badLength := by
      obtain ⟨_, _, _, _, he⟩ := scan_drain_framing s
      exact congrArg (·.cnt.badLength) he
    by_cases hall : u.tr.rx.length < len
    · rw [pollAligned_of_incomplete now (.inr ⟨hlow, hcfg ▸ hhigh, hall⟩)]
      exact ⟨nofun, hcnt⟩
    · obtain ⟨_, _, hdispatch⟩ := dispatchFrame_cnt (frameOfBytes (u.tr.rx.take len)) (extract now len u)
      rw [pollAligned_of_complete now hlow (hcfg ▸ hhigh) (not_lt.1 hall)]
      exact ⟨nofun, (congrArg (·.badLength) hdispatch).trans hcnt⟩

/-- Settles O31: the frame at the front selects the instruction, and waiting bytes that fit are scanned as they stand. -/
theorem pollRunsTheDecodedFrame : Obligations.PollRunsTheDecodedFrame := by
  intro s now i rest hlive hc hw hi
  have hpoll := runPoll_of_encode (s := s) (rest := rest) hc hw hi now
  refine ⟨?_, fun hwait hfits => ?_⟩
  · intro hfound hrx u
    have hulive : u.live = true := by
      obtain ⟨_, _, he⟩ := scan_drain_frame s
      exact (congrArg State.live he).trans hlive
    exact ⟨_, exec_eq_next_iff.2 ⟨.inr hulive, rfl⟩, exec_eq_next_iff.2 ⟨.inr hlive, hpoll hfound hrx⟩⟩
  · have hdrain := drain_of_fits (le_trans (by decide) (Config.wf_rxCap hc)) hfits
    have hat : magicAt s.cfg (s.tr.rx ++ s.tr.inQ) 0 := by
      rw [hwait, encode_eq_frameBytes hw]
      exact magicAt_frameBytes_append _ _ _
    have hscan : scan (drain s) = (drain s, true) := by
      rw [hdrain]
      exact scan_of_aligned hat
    rw [hscan, hdrain] at hpoll
    exact ⟨_, exec_eq_next_iff.2 ⟨.inr hlive, rfl⟩, exec_eq_next_iff.2 ⟨.inr hlive, hpoll rfl hwait⟩⟩

/-- Settles O32, by POLL's frame. -/
theorem pollCompletesWithinItsGroups : Obligations.PollCompletesWithinItsGroups := by
  intro s now hlive
  obtain ⟨_, _, _, _, _, _, r, he, hin, -⟩ := runPoll_frame now s
  have hverdict : r = .noFrame ∨ r = .badLength ∨ r = .dispatched := by cases r <;> simp
  refine ⟨_, (exec_poll hlive now).trans (congrArg _ he), rfl, rfl, rfl, hin, rfl, hlive, rfl, ?_⟩
  simpa only [OpResult.poll.injEq] using hverdict

/-- Settles O33: a dispatch answers one frame with the header of the one it extracted; without one only the buffer and the
counters of the framing move. -/
theorem oneResponsePerDispatchedFrame : Obligations.OneResponsePerDispatchedFrame := by
  intro s t now hc hexec
  obtain ⟨-, rfl⟩ := exec_eq_next_iff.1 hexec
  obtain ⟨htx, -⟩ := Config.wf_bounds hc
  obtain ⟨rx, overflow, resyncDrops, badMagic, hu⟩ := scan_drain_framing s
  rw [run]
  rcases runPoll_dispatches_or_not now s with (he | he) | ⟨length, hlow, hall, he⟩ <;> rw [he]
  · exact ⟨nofun, fun _ => by rw [hu]; exact ⟨rfl, rfl, rfl, rfl, rfl, rfl, rfl⟩⟩
  · exact ⟨nofun, fun _ => by rw [hu]; exact ⟨rfl, rfl, rfl, rfl, rfl, rfl, rfl⟩⟩
  · refine ⟨fun _ => ?_, fun h => absurd rfl h⟩
    have hheader := frameOfBytes_take_header hlow hall
    have hcfg : (extract now length (scan (drain s)).1).cfg = s.cfg := scan_drain_cfg s
    have htr : (extract now length (scan (drain s)).1).tr =
        { s.tr with rx := rx.drop length, inQ := [], received := true, lastFrameTime := now } := by
      rw [hu]
      rfl
    obtain ⟨v, out, hvtr, hvcfg, hlen, hanswer⟩ := dispatchFrame_eq_answered
      (frameOfBytes ((scan (drain s)).1.tr.rx.take length)) (extract now length (scan (drain s)).1)
    rw [hcfg] at hvcfg hlen
    have hfits : headerSize + out.length ≤ s.cfg.txCap := by omega
    refine ⟨out, hfits, ?_⟩
    rw [hanswer, ← hheader]
    simp [answered, hvtr, htr, hvcfg]

/-- Settles O34: from empty buffers the frame is on its way, and what is compared is part of what a dispatch reads and
writes. -/
theorem resyncExtractsTheFrameOnce : Obligations.ResyncExtractsTheFrameOnce := by
  intro s f junk1 junk2 pieces hc hrx hin hfits hfirst hnone hpieces hroom
  have hsize := frameBytes_length s.cfg f
  have hsearching : Searching s.cfg f junk2 (pieces.map Prod.fst).flatten s :=
    { cfg := rfl
      inputEmpty := hin
      short := by simp only [hrx, List.length_nil, headerSize] at *; omega
      frame := ⟨junk1, by rw [hrx, hpieces, List.nil_append], hfirst⟩ }
  obtain ⟨hcount, hall, hserved⟩ := deliver_of_searching hc hfits hnone pieces hroom hsearching
  exact ⟨hcount, hall, congrArg (·.pend) hserved, congrArg (·.ctrl) hserved, congrArg (·.tr.outQ) hserved,
    congrArg (·.cnt.noHandler) hserved, congrArg (·.cnt.handlerFalse) hserved⟩

end

section
/-! PROOFS. What a wire command answers, by the reply of its handler (42_transport.md R158, R160, R161), and which counters
it moves. -/

namespace Sys2Proof.Machine

open Sys2Proof.Claim

/-- A wire command or fallback counts a miss or a failure, or nothing. -/
theorem runWire_cnt {i : Instr} (hw : i.space = .wire) (s : State) :
    ∃ noHandler handlerFalse, (runWire i s).cnt = { s.cnt with noHandler := noHandler, handlerFalse := handlerFalse } := by
  rw [runWire_eq_finish hw, ← (handle_form i).cnt s]
  rcases finish_cases (frameOfBytes (encode s.cfg i)) (handle i s) with ⟨buf, -, he⟩ | ⟨why, hwhy, he⟩ <;> rw [he]
  · exact ⟨_, _, rfl⟩
  · rcases handle_failed hwhy with rfl | rfl | rfl | rfl <;> exact ⟨_, _, rfl⟩

/-- An empty reply is answered with an empty payload. -/
theorem finish_done_nil (req : Frame) (s : State) :
    finish req (s, .done []) = answered s req.seq req.objectId req.cmdId req.flags [] := by
  simp only [finish, respond, responseBytes, List.take_nil]
  rfl

/-- A read command answers its record, cut to `TX_CAP`, or fails on a smaller output buffer (43_commands.md R184, R193). -/
theorem finish_withRecord (req : Frame) (size : Nat) (record : State → List Byte) (s : State) :
    finish req (withRecord size record s) =
      if s.cfg.outCap < size then failed s req.seq req.objectId req.cmdId req.flags
      else answered s req.seq req.objectId req.cmdId req.flags ((record s).take (s.cfg.txCap - headerSize)) := by
  rcases withRecord_cases size record s with ⟨hroom, he⟩ | ⟨hshort, he⟩ <;> rw [he]
  · rw [if_neg (Nat.not_lt.2 hroom)]
    rfl
  · rw [if_pos hshort]
    exact finish_failed .statusCap req s

section
variable {i : Instr} {s : State} {q obj cmd g : Byte} {p : List Byte} (hlive : s.live = true) (hw : i.space = .wire)
  (hreq : encode s.cfg i = frameBytes s.cfg ⟨q, obj, cmd, g, p⟩)
include hlive hw hreq

/-- A wire command answers the frame that the encoder writes for it. -/
theorem exec_of_request : exec i s = .next (finish ⟨q, obj, cmd, g, p⟩ (handle i s)) := by
  rw [exec_wire hw hlive, hreq, frameOfBytes_frameBytes]

theorem exec_of_done_nil {t : State} (hdone : handle i s = (t, .done [])) :
    exec i s = .next (answered t q obj cmd g []) := by
  rw [exec_of_request hlive hw hreq, hdone, finish_done_nil]

/-- A set command whose payload is not exactly its width writes nothing and is counted (43_commands.md R183). -/
theorem exec_of_length_ne_width (hset : payloadWidth i ≠ 0) (hlen : p.length ≠ payloadWidth i) :
    exec i s = .next (failed s q obj cmd g) := by
  have hhandle : handle i s = (s, .failed .payload) :=
    handle_of_length_ne_width (c := s.cfg) hset (by rwa [hreq, frameOfBytes_frameBytes]) s
  rw [exec_of_request hlive hw hreq, hhandle]
  exact congrArg _ (finish_failed .payload _ s)

theorem exec_of_withRecord {size : Nat} {record : State → List Byte} (hhandle : handle i s = withRecord size record s) :
    exec i s = .next (if s.cfg.outCap < size then failed s q obj cmd g
      else answered s q obj cmd g ((record s).take (s.cfg.txCap - headerSize))) := by
  rw [exec_of_request hlive hw hreq, hhandle, finish_withRecord]

end

end Sys2Proof.Machine
end

section
/-! PROOFS. The obligations of 43_commands.md. -/

open Sys2Proof Sys2Proof.Machine Sys2Proof.Claim

/-- Settles O26: a handler stages, writes the modes and the setpoint, or only answers, and its failure is a miss or a failed
command. -/
theorem wireCommandsLeaveTheRest : Obligations.WireCommandsLeaveTheRest := by
  intro i s t hw hexec
  obtain ⟨-, rfl⟩ := exec_eq_next_iff.1 hexec
  obtain ⟨_, _, hcnt⟩ := runWire_cnt hw s
  obtain ⟨_, _, _, _, _, _, hframe⟩ := runWire_frame hw s
  rw [hframe] at hcnt
  rw [run_of_wire hw, hframe]
  exact ⟨rfl, rfl, rfl, rfl, by rw [hcnt], rfl, rfl, rfl, rfl⟩

/-- Settles O19, by the payload: on 4 bytes each handler stages its slot, and on any other number it fails by its width. -/
theorem pidFloatCommandsStage : Obligations.PidFloatCommandsStage := by
  refine ⟨fun s q obj g hlive => ⟨fun b0 b1 b2 b3 => ?_, fun p hp => ?_⟩, rfl, rfl, rfl, rfl⟩
  · refine ⟨?_, ?_, ?_, ?_, ?_, ?_, ?_⟩ <;> exact exec_of_done_nil hlive rfl rfl rfl
  · refine ⟨?_, ?_, ?_, ?_, ?_, ?_, ?_⟩ <;> exact exec_of_length_ne_width hlive rfl rfl (Nat.succ_ne_zero _) hp

/-- Settles O20, by the payload: on its width each handler writes its field, and on any other length it fails. -/
theorem modeAndControllerCommandsWrite : Obligations.ModeAndControllerCommandsWrite := by
  refine fun s q obj g hlive => ⟨fun b => ?_, fun b0 b1 b2 b3 => ?_, fun p hp => ?_, fun p hp => ?_⟩
  · refine ⟨?_, ?_, ?_⟩ <;> exact exec_of_done_nil hlive rfl rfl rfl
  · exact exec_of_done_nil hlive rfl rfl rfl
  · refine ⟨?_, ?_, ?_⟩ <;> exact exec_of_length_ne_width hlive rfl rfl (Nat.succ_ne_zero _) hp
  · exact exec_of_length_ne_width hlive rfl rfl (Nat.succ_ne_zero _) hp

/-- Settles O21: both handlers answer a record, whatever the payload of the request, and the records written out are the
serialised ones. -/
theorem readCommandsAnswerTheRecord : Obligations.ReadCommandsAnswerTheRecord :=
  fun _ _ _ _ _ hlive =>
    ⟨exec_of_withRecord (record := fun t => serPid t.pid) hlive rfl rfl rfl,
      exec_of_withRecord (record := fun t => serComposite t.ctrl t.pid) hlive rfl rfl rfl⟩

end

section
/-! PROOFS. No operation touches the queue, so a block whose host only invokes operations stays one (60_exceptions.md R216); and
a command whose handler fails with nothing written is counted and answered, no more (60_exceptions.md R215). -/

namespace Sys2Proof.Machine

open Sys2Proof.Claim

/-! ### The queue of host operations -/

/-- No instruction adds to the operations that wait or takes from them; only `fetch` does. -/
theorem run_ops (i : Instr) (s : State) : (run i s).ops = s.ops := by
  cases hspace : i.space with
  | wire =>
    obtain ⟨_, _, _, _, _, _, he⟩ := runWire_frame hspace s
    rw [run_of_wire hspace, he]
  | host =>
    cases i with
    | poll now =>
      obtain ⟨_, _, _, _, _, _, _, he, -, -⟩ := runPoll_frame now s
      rw [run, he]
    | tick pv now =>
      obtain ⟨_, _, _, he⟩ := runTick_frame pv now s
      rw [run, he]
    | reset | rx | ok | readCounters | txDrain => rfl
    | _ => cases hspace

/-- The operations behind the one that is taken are the host's still. -/
theorem State.Ready.tail {s : State} (h : s.Ready) {record : List Byte} {rest : List (List Byte)}
    (hops : s.ops = record :: rest) : State.Ready { s with ops := rest } := by
  obtain ⟨hlive, hdec⟩ := h
  rw [hops] at hdec
  exact ⟨hlive, (List.forall_mem_cons.1 hdec).2⟩

/-- What waits decodes after an instruction as it did before, since the instruction writes neither the queue nor the
configuration. -/
theorem State.Ready.run {s : State} (h : s.Ready) (i : Instr) : (Machine.run i s).Ready := by
  obtain ⟨hlive, hdec⟩ := h
  obtain ⟨hcfg, hkeep⟩ := run_cfg_live i s
  refine ⟨hkeep hlive, ?_⟩
  rwa [run_ops, hcfg]

/-! ### A handler that fails -/

/-- A wire command whose handler fails with nothing written moves the counter of its error class and echoes the header. -/
theorem exec_of_failed {i : Instr} {s : State} {q obj cmd g : Byte} {p : List Byte} {why : ErrorClass}
    (hlive : s.live = true) (hw : i.space = .wire) (hreq : encode s.cfg i = frameBytes s.cfg ⟨q, obj, cmd, g, p⟩)
    (hfail : handle i s = (s, .failed why)) :
    exec i s = .next (answered (raise why 0 s) q obj cmd g []) := by
  rw [exec_of_request hlive hw hreq, hfail, finish_failed]

end Sys2Proof.Machine
end

section
/-! PROOFS. The obligations of 60_exceptions.md. -/

open Sys2Proof Sys2Proof.Machine Sys2Proof.Claim

/-- Settles O9, by what waits: with nothing waiting the block stays as it is, and otherwise the record at the head decodes to
an instruction, which runs on a constructed block and leaves the rest of the queue to be decoded as before. -/
theorem readyBlockNeverStops : Obligations.ReadyBlockNeverStops := by
  intro s h
  cases hops : s.ops with
  | nil => exact ⟨s, step_of_ops_nil hops, h⟩
  | cons record rest =>
    have ⟨hlive, hwaiting⟩ := h
    obtain ⟨i, hdec⟩ := hwaiting record (by simp [hops])
    refine ⟨run i { s with ops := rest }, ?_, (h.tail hops).run i⟩
    rw [step_of_instr hops hdec, exec_eq_next_iff]
    exact ⟨.inr hlive, rfl⟩

/-- Settles O22: neither row writes anything before it fails, the one by a miss and the other by an unknown command. -/
theorem unroutedFramesOnlyCount : Obligations.UnroutedFramesOnlyCount :=
  fun _ _ _ _ _ _ hlive =>
    ⟨exec_of_failed (why := .noHandler) hlive rfl rfl rfl, exec_of_failed (why := .unknownCmd) hlive rfl rfl rfl⟩

end

section
/-! PROOFS. The range check that RESET makes (70_reset_and_hazards.md R231), what a sound configuration says of the codes, and
the strategy that a NaN reading selects (R244). -/

namespace Sys2Proof.Machine

/-- The range check keeps a valid pair, and takes the safe default range otherwise. -/
theorem checkRange_eq (c : Config) (p : PidStatus) :
    checkRange c p =
      { p with
        pvMin := if validRange c.num p.pvMin p.pvMax then p.pvMin else c.defaultPvMin
        pvMax := if validRange c.num p.pvMin p.pvMax then p.pvMax else c.defaultPvMax } := by
  rcases checkRange_cases c p with ⟨hv, he⟩ | ⟨hv, he⟩
  · simp [he, hv]
  · simp [he, hv]

theorem Config.sound_codesDistinct {c : Config} (h : Config.sound c = true) : c.codesDistinct = true := by
  simp only [Config.sound, Config.wf, Bool.and_eq_true] at h
  obtain ⟨⟨⟨-, hcodes⟩, -⟩, -⟩ := h
  exact hcodes

section

variable {n : NumFormat} {pv : F32} (h : isNaN n pv = true) (ctrl : ControlState)

include h

/-- The arbiter's error from a NaN reading is a NaN. -/
theorem arbiterError_of_isNaN : ∃ e, arbiterError n ctrl pv = .nan e := by
  rw [arbiterError, ofBits_of_isNaN h]
  cases Val.ofBits n ctrl.sp with
  | num => exact ⟨_, rfl⟩
  | nan => exact ⟨_, rfl⟩

/-- A NaN error fails the tests of Off, Boost and ClosedLoop. -/
theorem classify_of_isNaN : classify n ctrl pv = .feedForward := by
  obtain ⟨e, he⟩ := arbiterError_of_isNaN h ctrl
  apply classify_feedForward
  · rw [he, fle_nan_left]
  · rw [he, fle_nan_right]
  · rw [he, fabs, fle_nan_left]

end

end Sys2Proof.Machine
end

section
/-! PROOFS. The obligations of 70_reset_and_hazards.md. -/

open Sys2Proof Sys2Proof.Machine

/-- Settles O52: outside Auto the invariant leaves no prior tick, so the TICK that puts the PID in Auto is one that seeds. -/
theorem entryIntoAutoOnlySeeds : Obligations.EntryIntoAutoOnlySeeds := by
  intro s pv now hinv hlive ho hmode
  have hcodes := Config.sound_codesDistinct hinv.config
  have hseed := hinv.freshOutsideAuto hmode
  exact ⟨_, tickAutoSeedsOrHolds s pv now hlive hcodes ho (.inl hseed), rfl, rfl, rfl, rfl, rfl⟩

/-- Settles O8: every operation but RESET asks whether RESET was issued, and RESET answers a constructed block. -/
theorem beforeResetOnlyResetRuns : Obligations.BeforeResetOnlyResetRuns := by
  intro i s hdead
  refine ⟨fun hi => ?_, runReset s, rfl, rfl⟩
  rw [exec_eq_whenLive hi, whenLive_of_not_live hdead]

/-- Settles O12: but for the range check RESET writes each value as it stands. -/
theorem resetConstructsTheInstance : Obligations.ResetConstructsTheInstance := by
  intro s
  refine exec_eq_next_iff.2 ⟨.inl rfl, ?_⟩
  rw [run, runReset, State.construct, PidStatus.atReset, checkRange_eq]
  rfl

/-- Settles O13: the reset state is the block RESET constructs under the default configuration, which is sound. -/
theorem resetMeetsTheInvariant : Obligations.ResetMeetsTheInvariant :=
  ⟨fun _ => construct_inv, construct_inv (by decide)⟩

/-- Settles O46: a NaN reading selects FeedForward, which puts the PID in Manual, whose arm keeps the Cv that is driven. -/
theorem nanReadingSelectsFeedForward : Obligations.NanReadingSelectsFeedForward :=
  fun _ _ now hlive hcodes ho hnan =>
    have hdriven := arbitrate_of_classify hcodes ho (classify_of_isNaN hnan _)
    ⟨_, exec_eq_next_iff.2 ⟨.inr hlive, runTick_of_manual hdriven now hcodes rfl⟩, rfl, rfl, rfl, rfl⟩

end
